-- ==== Sys2Proof/Word.lean ====
section
/-! DEFINITION. The two word types of the block: bytes and 16-bit register values (00_scope R4, R6). -/

namespace Sys2Proof

/-- One byte: an EEPROM cell, a byte of system memory, a byte on the bus (00_scope R4, CELL_WIDTH). -/
abbrev Byte := BitVec 8

/-- One host register value, bit 0 the least significant (00_scope R4 REG_WIDTH, R6). -/
abbrev Word := BitVec 16

end Sys2Proof
end

