-- ==== Sys2Proof/Syntax.lean ====
section
/-! DEFINITION. The command set (30_encoding R91): one constructor per row of spec/opcode_table.json, and the two
fields of a command word (R90). A command carries no operand: its operands stand in the register block (R93). -/

namespace Sys2Proof

/-- The ten commands (30_encoding R91). -/
inductive Instr where
  /-- 0x0 NOP (40_bus_primitive R114). -/
  | nop
  /-- 0x1 START_W, `begin_start(Write)` (R115). -/
  | startW
  /-- 0x2 START_R, `begin_start(Read)` (R116). -/
  | startR
  /-- 0x3 SEND_ADDR, `send_address_byte(ADDR)` (R117). -/
  | sendAddr
  /-- 0x4 SEND_DATA, `send_data_byte(TXDATA)` (R118). -/
  | sendData
  /-- 0x5 RECV_ACK, `receive_data_byte()` acknowledged by the master (R119). -/
  | recvAck
  /-- 0x6 RECV_NACK, `receive_data_byte()` not acknowledged (R120). -/
  | recvNack
  /-- 0x7 STOP, `end_stop()` (R121). -/
  | stop
  /-- 0x8 XFER_W, begin-write (41_block_transfer R161). -/
  | xferW
  /-- 0x9 XFER_R, begin-read (41_block_transfer R162). -/
  | xferR
deriving DecidableEq, Repr

/-- The two fields of a command word (30_encoding R90): OP in bits 3:0, RSV in bits 15:4. -/
structure CmdFields where
  op  : BitVec 4
  rsv : BitVec 12
deriving DecidableEq, Repr

end Sys2Proof
end

