-- ==== Sys2Proof/WellFormed.lean ====
section
/-! DEFINITION. When a command word's fields are those of a command (30_encoding R92). A term of `Instr` has no
operand (R93), so every term of it is well formed; what can be ill formed is a word's fields, by either of the
two checks below. -/

namespace Sys2Proof

/-- RSV must be 0 (30_encoding R90, R92). -/
def CmdFields.rsvZero (f : CmdFields) : Bool := f.rsv == 0

/-- OP must be 0x0 to 0x9; 0xA to 0xF are reserved (30_encoding R91, R92). -/
def CmdFields.opAssigned (f : CmdFields) : Bool := decide (f.op.toNat < 0xA)

/-- The fields are those of one of the ten commands (30_encoding R92, R97 check 1). -/
def CmdFields.wellFormed (f : CmdFields) : Bool := f.rsvZero && f.opAssigned

end Sys2Proof
end

