-- ==== Sys2Proof/Decode.lean ====
section
/-! DEFINITION. The decoder of command words, total on every word and on any bytes, and the encoder
(30_encoding R90 to R94). -/

namespace Sys2Proof

/-- Why bytes are no command. The first two are the illegal words of 30_encoding R92 (at the CMD register they
raise IllegalCommand, a next state); the third is the byte list running out before one 16-bit word. -/
inductive DecodeError where
  | reservedBitsSet
  | reservedOpcode
  | truncated
deriving DecidableEq, Repr

/-- The fields of a word: OP = v[3:0], RSV = v[15:4] (30_encoding R90). -/
def CmdFields.ofWord (w : Word) : CmdFields :=
  { op := w.extractLsb' 0 4, rsv := w.extractLsb' 4 12 }

/-- The word of two fields (30_encoding R90). -/
def CmdFields.toWord (f : CmdFields) : Word := f.rsv ++ f.op

/-- The operation code of a command (30_encoding R91). -/
def opcodeOf : Instr → BitVec 4
  | .nop => 0x0
  | .startW => 0x1
  | .startR => 0x2
  | .sendAddr => 0x3
  | .sendData => 0x4
  | .recvAck => 0x5
  | .recvNack => 0x6
  | .stop => 0x7
  | .xferW => 0x8
  | .xferR => 0x9

/-- The command of an operation code; none for the reserved codes 0xA to 0xF (30_encoding R91, R92). -/
def instrOfOpcode (op : BitVec 4) : Option Instr :=
  match op.toNat with
  | 0x0 => some .nop
  | 0x1 => some .startW
  | 0x2 => some .startR
  | 0x3 => some .sendAddr
  | 0x4 => some .sendData
  | 0x5 => some .recvAck
  | 0x6 => some .recvNack
  | 0x7 => some .stop
  | 0x8 => some .xferW
  | 0x9 => some .xferR
  | _ => none

/-- Decode the fields of a word (30_encoding R92, R97 check 1). -/
def decodeFields (f : CmdFields) : Except DecodeError Instr :=
  if f.rsv ≠ 0 then .error .reservedBitsSet
  else match instrOfOpcode f.op with
    | some i => .ok i
    | none => .error .reservedOpcode

/-- Decode a 16-bit command word (30_encoding R92: the decoder is total). -/
def decodeWord (w : Word) : Except DecodeError Instr := decodeFields (CmdFields.ofWord w)

/-- A word from its two bytes, the low byte first (20_memory R62). -/
def wordOfBytes (lo hi : Byte) : Word := hi ++ lo

/-- The two bytes of a word, the low byte first (20_memory R62). -/
def bytesOfWord (w : Word) : List Byte := [w.extractLsb' 0 8, w.extractLsb' 8 8]

/-- Decode the first command of a list of bytes: every command is exactly 16 bits (30_encoding R94). -/
def decode : List Byte → Except DecodeError (Instr × List Byte)
  | lo :: hi :: rest =>
    match decodeWord (wordOfBytes lo hi) with
    | .ok i => .ok (i, rest)
    | .error e => .error e
  | [_] => .error .truncated
  | [] => .error .truncated

/-- The fields of a command's word: RSV is 0 (30_encoding R90, R91). -/
def encodeFields (i : Instr) : CmdFields := { op := opcodeOf i, rsv := 0 }

/-- The command word (30_encoding R91). -/
def encode (i : Instr) : Word := (encodeFields i).toWord

/-- The command word's bytes, the low byte first (20_memory R62). -/
def encodeBytes (i : Instr) : List Byte := bytesOfWord (encode i)

/-- What the decoder reads from an opcode-table word of `nbits` bits whose bits are `w`; bits above `nbits`
are 0. -/
def decodeTableWord (nbits w : Nat) : Option Instr :=
  match decode (bytesOfWord (BitVec.ofNat 16 (w % 2 ^ nbits))) with
  | .ok (i, _) => some i
  | .error _ => none

end Sys2Proof
end

