-- ==== Sys2Proof/Config.lean ====
section
/-! DEFINITION. What an implementation fixes (00_scope R4) and the free values: the slave's answers
(40_bus_primitive R112), which no rule of the block determines. -/

namespace Sys2Proof

/-- A slave's answer to a transmit phase: a start with its control byte, an address byte or a data byte
(40_bus_primitive R112). `late` stands for "no acknowledge before T_TIMEOUT". -/
inductive TxAnswer where
  | ack
  | nack
  | late
deriving DecidableEq, Repr, Inhabited

/-- A slave's answer to a receive phase: a byte, or none before T_TIMEOUT (40_bus_primitive R112). -/
inductive RxAnswer where
  | data (v : Byte)
  | late
deriving DecidableEq, Repr, Inhabited

namespace Config

/-- REG_BLOCK_SIZE: bytes of register space (00_scope R4). -/
abbrev regBlockSize : Nat := 32

/-- EEPROM_SIZE: cells 0x00 to 0xFF (00_scope R4). -/
abbrev eepromSize : Nat := 256

/-- Bytes of system memory: SYS_ADDR_WIDTH = 16 (00_scope R4; 20_memory R65). -/
abbrev sysMemSize : Nat := 65536

/-- REG_BASE, the host address of register offset 0x00: OPEN (00_scope R4; 92_eei_decisions D1).
It has no value here, so nothing can be proved of one (log entry 12). -/
opaque regBase : Nat

/-- What a byte of memory that nothing has written reads as. DESIGN CHOICE, unsafe (log entry 7): the spec gives
system memory and the reference slave's cells no initial contents. -/
def unlistedByte : Byte := 0

/-- FREE VALUE (log entry 4): the slave's answer to the transmit phase that is the `n`-th free draw, where the
run lists no answer. The spec leaves it open (40_bus_primitive R112: "draw r from {Ack, Nack, Late}"). -/
opaque freeTxAnswer : Nat → TxAnswer

/-- FREE VALUE (log entry 4): the slave's answer to the receive phase that is the `n`-th free draw, where the
run lists no answer (40_bus_primitive R112; 92_eei_decisions D32). -/
opaque freeRxAnswer : Nat → RxAnswer

end Config

end Sys2Proof
end

