-- ==== Sys2Proof/Machine/State.lean ====
section
/-! DEFINITION. The state of the block, of system memory and of the model's inputs, as plain data
(10_state R20 to R47; 20_memory R65, R76), the reasons a step can stop, and the state after reset (R40). -/

namespace Sys2Proof.Machine

/-- BSTATE (10_state R25). Codes 6 and 7 are reserved and no rule writes them (93 U14; log entry 11). -/
inductive BusState where
  | idle
  | startPending
  | addressing
  | transmittingByte
  | receivingByte
  | stopPending
deriving DecidableEq, Repr

/-- ERRCODE (60_exceptions R210). Codes 5 to 7 are reserved and never raised (93 U14; log entry 11). -/
inductive ErrCode where
  | none
  | busTimeout
  | requestRejected
  | outOfRange
  | illegalCommand
deriving DecidableEq, Repr

/-- SSTEP, the sequencer's next action (10_state R36). -/
inductive SeqStep where
  | ssIdle
  | ssStart
  | ssAddr
  | ssRestart
  | ssRdata
  | ssStop
  | ssNext
  | ssAbort
deriving DecidableEq, Repr

/-- The acknowledge bit as an event shows it (40_bus_primitive R111). -/
inductive AckBit where
  | ack
  | nack
deriving DecidableEq, Repr

/-- A bus event (40_bus_primitive R111). -/
inductive BusEvent where
  /-- Start condition S. -/
  | start
  /-- Repeated start condition Sr. -/
  | repStart
  /-- `Tx(b, a)`: the master sent `b`, the slave answered `a`. -/
  | tx (b : Byte) (a : AckBit)
  /-- `TxTimeout(b)`: the master sent `b`, no acknowledge within T_TIMEOUT. -/
  | txTimeout (b : Byte)
  /-- `Rx(b, m)`: the slave sent `b`, the master answered `m`. -/
  | rx (b : Byte) (m : AckBit)
  /-- No byte within T_TIMEOUT. -/
  | rxTimeout
  /-- Stop condition P. -/
  | stop
deriving DecidableEq, Repr

/-- Memory as (address, byte) pairs in canonical form (`Memory.wf`): addresses strictly rising, no entry equal to
`Config.unlistedByte`. -/
abbrev Memory := List Host.Cell

/-- The reference slave's mode (20_memory R76). -/
inductive RefMode where
  | off
  | wantAddr
  | writeData
  | readData
deriving DecidableEq, Repr

/-- The reference slave, an EEPROM of 256 cells (20_memory R76). -/
structure RefSlave where
  /-- EEPROM_DEV_ADDR, a parameter (00_scope R4): no step changes it. -/
  devAddr : BitVec 7
  /-- `E[0..255]`. -/
  cells   : Memory
  /-- `P`, the cell pointer. -/
  ptr     : Byte
  /-- `mode`. -/
  mode    : RefMode
  /-- `ctl`: the next transmitted byte is a control byte. -/
  ctl     : Bool
deriving DecidableEq, Repr

/-- The slave on the bus, seen only through its answers (40_bus_primitive R112). The model's own field. -/
inductive Device where
  /-- Any slave: the answers listed come first, then free values, `draws` of which have been taken (log entry 4). -/
  | oracle (txAnswers : List TxAnswer) (rxAnswers : List RxAnswer) (draws : Nat)
  /-- The reference slave (20_memory R76 to R79). -/
  | reference (r : RefSlave)
deriving DecidableEq, Repr

/-- The width of a host access to register space; only 16 bits are defined (20_memory R61). -/
inductive AccessWidth where
  | w8
  | w16
  | w32
deriving DecidableEq, Repr

/-- A register of the block by name (10_state R20, R34). -/
inductive Reg where
  | ctrl
  | cmd
  | status
  | addr
  | count
  | completed
  | bufptr
  | txdata
  | rxdata
  | slave
  /-- One of the offsets 0x14 to 0x1E. -/
  | reserved
deriving DecidableEq, Repr

/-- The values a reset draws for the state whose reset value is unspecified (10_state R40, R47). -/
structure ResetDraw where
  addr   : Byte
  count  : Word
  bufptr : Word
  txdata : Byte
  rxdata : Byte
  slave  : BitVec 7
  shift  : Byte
  rxack  : Bool
deriving DecidableEq, Repr

/-- One step of the host, or of the reset input (00_scope R8; 20_memory R65; 70_reset R250). -/
inductive HostOp where
  /-- Read register space at an offset from REG_BASE. -/
  | read (width : AccessWidth) (offset : Nat)
  /-- Write `v` to register space at an offset from REG_BASE. -/
  | write (width : AccessWidth) (offset : Nat) (v : Word)
  /-- Read one byte of system memory. -/
  | memRead (a : BitVec 16)
  /-- Write one byte of system memory. -/
  | memWrite (a : BitVec 16) (b : Byte)
  /-- The reset input, with the values this reset draws. -/
  | reset (d : ResetDraw)
deriving DecidableEq, Repr

/-- The host's next step, taken once the engine has made `after` more steps, or sooner if no engine agent is
enabled: every interleaving of host and engine steps is some list of these (00_scope R9; log entry 1). -/
structure Input where
  after : Nat
  op    : HostOp
deriving DecidableEq, Repr

/-- The engine's agents (00_scope R8). -/
inductive Agent where
  | bus
  | seq
  | ce
deriving DecidableEq, Repr

/-- The machine's state. The first groups are the block's (10_state R20 to R38), `mem` is shared with the host
(20_memory R65), `history` is the record of 10_state R46, and the last group is the model's own. -/
structure State where
  /-- CTRL.EN (10_state R21). -/
  en        : Bool
  /-- CTRL.BYTE_IE. -/
  byteIe    : Bool
  /-- CTRL.DONE_IE. -/
  doneIe    : Bool
  /-- CTRL.ERR_IE. -/
  errIe     : Bool
  /-- STATUS.BSTATE (10_state R24, R25). -/
  bstate    : BusState
  /-- STATUS.HELD. -/
  held      : Bool
  /-- STATUS.RXMODE: true = receive mode. -/
  rxmode    : Bool
  /-- STATUS.READY. -/
  ready     : Bool
  /-- STATUS.SBUSY. -/
  sbusy     : Bool
  /-- STATUS.BYTE. -/
  byte      : Bool
  /-- STATUS.DONE. -/
  done      : Bool
  /-- STATUS.ERR. -/
  err       : Bool
  /-- STATUS.ERRCODE. -/
  errcode   : ErrCode
  /-- STATUS.CE_ARMED. -/
  ceArmed   : Bool
  /-- STATUS.MRECV. -/
  mrecv     : Bool
  /-- STATUS.SDIR: false = Write, true = Read. -/
  sdir      : Bool
  /-- ADDR[7:0] (10_state R27). -/
  addr      : Byte
  /-- COUNT (R28). -/
  count     : Word
  /-- COMPLETED (R29). -/
  completed : Word
  /-- BUFPTR (R30). -/
  bufptr    : Word
  /-- TXDATA[7:0] (R31). -/
  txdata    : Byte
  /-- RXDATA[7:0] (R32). -/
  rxdata    : Byte
  /-- SLAVE[6:0] (R33). -/
  slave     : BitVec 7
  /-- SSTEP, hidden (R36). -/
  sstep     : SeqStep
  /-- SHIFT, hidden (R37). -/
  shift     : Byte
  /-- RXACK, hidden (R38): true = the master acknowledges. -/
  rxack     : Bool
  /-- System memory (20_memory R65). -/
  mem       : Memory
  /-- H, the bus event history, oldest first (10_state R46). -/
  history   : List BusEvent
  /-- The slave that answers on the bus (the model's own; log entries 4 to 6). -/
  device    : Device
  /-- What the host's last read returned (the model's own; log entry 9). -/
  hostData  : Word
  /-- The host's coming steps (the model's own; log entry 1). -/
  inputs    : List Input
deriving DecidableEq, Repr

/-- Why the machine stops. The hardware has no fault that stops the engine (00_scope R10): the first is the spec's
"stuck", the others stand in states that no run reaches (log entry 10). -/
inductive Fault where
  /-- No agent is enabled and the host makes no further step (00_scope R10). Raised by `nextStep`. Safe. -/
  | stuck
  /-- READY = 0 with BSTATE Idle, which 10_state R41 excludes (40_bus_primitive R125). Raised by `busStep`. Safe. -/
  | noPhaseInFlight
  /-- SBUSY = 1 with SSTEP = SS_IDLE, which 10_state R41 excludes. Raised by `seqStep`. Safe. -/
  | sequencerIdle
  /-- A copy engine address above 0xFFFF, which does not exist and which 20_memory R66 excludes. Raised by the
  copy engine's moves. Safe. -/
  | outsideSystemMemory
deriving DecidableEq, Repr

/-- Why a step has no meaning. -/
inductive Refusal where
  /-- A command whose meaning is not modelled. No arm answers with it: every command has its meaning. Safe. -/
  | notModelled (mnemonic : String)
  /-- A register access that is not a 16-bit access at an even offset from 0x00 to 0x1E (20_memory R61). Raised by
  `hostStep`. Safe. -/
  | badRegisterAccess
deriving DecidableEq, Repr

/-- The machine right after reset (10_state R40). ADDR, COUNT, BUFPTR, TXDATA, RXDATA, SLAVE, SHIFT and RXACK are
unspecified there; 0 is the model's value for each (DESIGN CHOICE, unsafe: log entry 3). The fields that are not
the block's are as log entries 2, 5, 7, 8 and 9 say. -/
def State.reset : State where
  en := false
  byteIe := false
  doneIe := false
  errIe := false
  bstate := .idle
  held := false
  rxmode := false
  ready := true
  sbusy := false
  byte := false
  done := false
  err := false
  errcode := .none
  ceArmed := false
  mrecv := false
  sdir := false
  addr := 0
  count := 0
  completed := 0
  bufptr := 0
  txdata := 0
  rxdata := 0
  slave := 0
  sstep := .ssIdle
  shift := 0
  rxack := false
  mem := []
  history := []
  device := .oracle [] [] 0
  hostData := 0
  inputs := []

end Sys2Proof.Machine
end

