-- ==== Sys2Proof/Machine/Memory.lean ====
section
/-! DEFINITION. Byte memory in its one canonical form: system memory (20_memory R65) and the reference slave's
cells (R76). -/

namespace Sys2Proof.Machine

/-- The byte at address `a` (20_memory R65 `MemRead`). -/
def Memory.read : Memory → Nat → Byte
  | [], _ => Config.unlistedByte
  | (k, b) :: m, a => if k = a then b else Memory.read m a

/-- Set the byte at address `a` (20_memory R65 `MemWrite`), keeping the canonical form: writing what an unlisted
address reads as removes the entry. -/
def Memory.write : Memory → Nat → Byte → Memory
  | [], a, b => if b = Config.unlistedByte then [] else [(a, b)]
  | (k, c) :: m, a, b =>
    if a < k then
      if b = Config.unlistedByte then (k, c) :: m else (a, b) :: (k, c) :: m
    else if a = k then
      if b = Config.unlistedByte then m else (a, b) :: m
    else (k, c) :: Memory.write m a b

/-- The canonical form from address `lo` on: addresses strictly rising, below `size`, no unlisted value listed. -/
def Memory.wfFrom (size : Nat) : Nat → Memory → Bool
  | _, [] => true
  | lo, (k, b) :: m =>
    decide (lo ≤ k) && decide (k < size) && decide (b ≠ Config.unlistedByte) && Memory.wfFrom size (k + 1) m

/-- The canonical form of a memory of `size` bytes. -/
def Memory.wf (size : Nat) (m : Memory) : Bool := Memory.wfFrom size 0 m

end Sys2Proof.Machine
end

