-- ==== Sys2Proof/Machine/Device.lean ====
section
/-! DEFINITION. The slave's answers (40_bus_primitive R112): the listed and free answers of any slave, and the
reference slave (20_memory R76 to R79). -/

namespace Sys2Proof.Machine

/-- The reference slave in its initial state, `mode = Off` and `ctl = 0`, with the cells `E` and the pointer `P` a
claim states (20_memory R76). -/
def RefSlave.initial (devAddr : BitVec 7) (cells : Memory) (ptr : Byte) : RefSlave :=
  { devAddr := devAddr, cells := cells, ptr := ptr, mode := .off, ctl := false }

/-- The reference slave on a bus event (20_memory R77). -/
def RefSlave.onEvent (r : RefSlave) : BusEvent → RefSlave
  | .start => { r with mode := .off, ctl := true }
  | .repStart => { r with mode := .off, ctl := true }
  | .stop => { r with mode := .off, ctl := false }
  | .tx _ _ => r
  | .txTimeout _ => r
  | .rx _ _ => r
  | .rxTimeout => r

/-- The reference slave's answer to a transmit phase carrying `b` (20_memory R78). -/
def RefSlave.answerTx (r : RefSlave) (b : Byte) : TxAnswer × RefSlave :=
  if r.ctl = true then
    if b.extractLsb' 1 7 = r.devAddr then
      (.ack, { r with ctl := false, mode := if b.getLsbD 0 = false then .wantAddr else .readData })
    else (.nack, { r with ctl := false, mode := .off })
  else match r.mode with
    | .wantAddr => (.ack, { r with ptr := b, mode := .writeData })
    | .writeData => (.ack, { r with cells := r.cells.write r.ptr.toNat b, ptr := r.ptr + 1 })
    | .off => (.nack, r)
    | .readData => (.nack, r)

/-- The reference slave's answer to a receive phase (20_memory R79). -/
def RefSlave.answerRx (r : RefSlave) : RxAnswer × RefSlave :=
  match r.mode with
  | .readData => (.data (r.cells.read r.ptr.toNat), { r with ptr := r.ptr + 1 })
  | .off => (.data 0xFF, r)
  | .wantAddr => (.data 0xFF, r)
  | .writeData => (.data 0xFF, r)

/-- The reference slave in its initial state as the slave on the bus (20_memory R76). -/
def Device.initialReference (devAddr : BitVec 7) (cells : Memory) (ptr : Byte) : Device :=
  .reference (RefSlave.initial devAddr cells ptr)

/-- What a bus event does to the slave. -/
def Device.onEvent (d : Device) (e : BusEvent) : Device :=
  match d with
  | .oracle tx rx n => .oracle tx rx n
  | .reference r => .reference (r.onEvent e)

/-- The slave's answer to a transmit phase carrying `b`: the next listed answer, else a free value
(40_bus_primitive R112). -/
def Device.answerTx (d : Device) (b : Byte) : TxAnswer × Device :=
  match d with
  | .oracle (a :: tx) rx n => (a, .oracle tx rx n)
  | .oracle [] rx n => (Config.freeTxAnswer n, .oracle [] rx (n + 1))
  | .reference r => ((r.answerTx b).1, .reference (r.answerTx b).2)

/-- The slave's answer to a receive phase (40_bus_primitive R112). -/
def Device.answerRx (d : Device) : RxAnswer × Device :=
  match d with
  | .oracle tx (a :: rx) n => (a, .oracle tx rx n)
  | .oracle tx [] n => (Config.freeRxAnswer n, .oracle tx [] (n + 1))
  | .reference r => (r.answerRx.1, .reference r.answerRx.2)

end Sys2Proof.Machine
end

