-- ==== Sys2Proof/Machine/Ops.lean ====
section
/-! DEFINITION. The named operations every rule is written with (00_scope R7): `emit`, `raise`, the four issue
functions (40_bus_primitive R113), the abort `fail()` (R126), the acknowledgement of an error (60_exceptions R221),
the acceptance of a transfer (41_block_transfer R163) and the reset (70_reset R250). -/

namespace Sys2Proof.Machine

/-- What a step, a command or a host access answers. -/
abbrev Result := Host.Outcome State Fault Refusal

/-- `emit E`: append the event to the history (00_scope R7; 10_state R46); the slave sees it (20_memory R77). -/
def State.emit (s : State) (e : BusEvent) : State :=
  { s with history := s.history ++ [e], device := s.device.onEvent e }

/-- `raise X`, the error latch: the block's counterpart of taking an exception (60_exceptions R211, R220). -/
def State.raise (s : State) (e : ErrCode) : State :=
  { s with err := true, errcode := e }

/-- The host's acknowledgement, the block's counterpart of returning from an exception (60_exceptions R221): a write
of `v` to STATUS clears BYTE, DONE and ERR where `v` has a 1 (10_state R26). -/
def State.acknowledge (s : State) (v : Word) : State :=
  { s with
    byte := if v.getLsbD 7 = true then false else s.byte
    done := if v.getLsbD 8 = true then false else s.done
    err := if v.getLsbD 9 = true then false else s.err }

/-- The control byte `{SLAVE[6:0], rw}` (40_bus_primitive R113; 20_memory R68). -/
def controlByte (slave : BitVec 7) (rw : Bool) : Byte := slave ++ BitVec.ofBool rw

/-- `issue_start(rw)` (40_bus_primitive R113). -/
def State.issueStart (s : State) (rw : Bool) : State :=
  { s.emit (if s.held = false then .start else .repStart) with
    shift := controlByte s.slave rw
    bstate := .startPending
    held := true
    rxmode := rw
    mrecv := rw
    ready := false }

/-- `issue_tx(b, st)` (40_bus_primitive R113). -/
def State.issueTx (s : State) (b : Byte) (st : BusState) : State :=
  { s with shift := b, bstate := st, ready := false }

/-- `issue_rx(m)` (40_bus_primitive R113). -/
def State.issueRx (s : State) (m : Bool) : State :=
  { s with rxack := m, bstate := .receivingByte, ready := false }

/-- `issue_stop()` (40_bus_primitive R113). -/
def State.issueStop (s : State) : State :=
  { s with bstate := .stopPending, ready := false }

/-- `fail()`, the abort on a failed phase (40_bus_primitive R126; 60_exceptions R212, R220). -/
def State.fail (s : State) : State :=
  { s.raise .busTimeout with
    ceArmed := false
    sstep := if s.sbusy = true then .ssAbort else s.sstep }.issueStop

/-- `accept(dir)` of a transfer command (41_block_transfer R163). -/
def State.accept (s : State) (dir : Bool) : State :=
  if s.count.toNat = 0 then
    { s with sdir := dir, completed := 0, byte := false, done := true }
  else
    { s with sdir := dir, completed := 0, byte := false, done := false, sbusy := true, sstep := .ssStart }

/-- The reset input (70_reset R250 to R252; 10_state R40): the block's state to its reset values, the unspecified
ones to the values `d` drawn; the history, system memory and the slave are untouched. -/
def State.resetBlock (s : State) (d : ResetDraw) : State :=
  { s with
    en := false
    byteIe := false
    doneIe := false
    errIe := false
    bstate := .idle
    held := false
    rxmode := false
    ready := true
    sbusy := false
    byte := false
    done := false
    err := false
    errcode := .none
    ceArmed := false
    mrecv := false
    sdir := false
    addr := d.addr
    count := d.count
    completed := 0
    bufptr := d.bufptr
    txdata := d.txdata
    rxdata := d.rxdata
    slave := d.slave
    sstep := .ssIdle
    shift := d.shift
    rxack := d.rxack }

end Sys2Proof.Machine
end

