-- ==== Sys2Proof/Machine/Flags.lean ====
section
/-! DEFINITION. The flag words and every flag computation: the STATUS and CTRL values a read returns (10_state R21,
R24, R25; 60_exceptions R210), IRQ (10_state R39) and `legal(op)` (30_encoding R98). -/

namespace Sys2Proof.Machine

/-- The numeric code of BSTATE (10_state R25). -/
def BusState.code : BusState → BitVec 3
  | .idle => 0
  | .startPending => 1
  | .addressing => 2
  | .transmittingByte => 3
  | .receivingByte => 4
  | .stopPending => 5

/-- The numeric code of ERRCODE (60_exceptions R210). -/
def ErrCode.code : ErrCode → BitVec 3
  | .none => 0
  | .busTimeout => 1
  | .requestRejected => 2
  | .outOfRange => 3
  | .illegalCommand => 4

/-- STATUS as one 16-bit value (10_state R24), bit 15 first. -/
def State.statusWord (s : State) : Word :=
  BitVec.ofBool s.sdir ++ BitVec.ofBool s.mrecv ++ BitVec.ofBool s.ceArmed ++ s.errcode.code ++
    BitVec.ofBool s.err ++ BitVec.ofBool s.done ++ BitVec.ofBool s.byte ++ BitVec.ofBool s.sbusy ++
    BitVec.ofBool s.ready ++ BitVec.ofBool s.rxmode ++ BitVec.ofBool s.held ++ s.bstate.code

/-- CTRL as one 16-bit value (10_state R21), bits 15:4 zero. -/
def State.ctrlWord (s : State) : Word :=
  (0 : BitVec 12) ++ BitVec.ofBool s.errIe ++ BitVec.ofBool s.doneIe ++ BitVec.ofBool s.byteIe ++
    BitVec.ofBool s.en

/-- IRQ, a level that is a function of the state (10_state R39; 60_exceptions R218). -/
def State.irq (s : State) : Bool :=
  (s.byte && s.byteIe) || (s.done && s.doneIe) || (s.err && s.errIe)

/-- In receive mode the master still owes a received byte. -/
def State.owesByte (s : State) : Bool := s.rxmode && s.mrecv

/-- `legal(START_W)` and `legal(START_R)` (30_encoding R98). -/
def State.legalStart (s : State) : Bool := !s.owesByte

/-- `legal(SEND_ADDR)` and `legal(SEND_DATA)` (30_encoding R98). -/
def State.legalSend (s : State) : Bool := s.held && !s.rxmode

/-- `legal(RECV_ACK)` and `legal(RECV_NACK)` (30_encoding R98). -/
def State.legalRecv (s : State) : Bool := s.held && s.owesByte

/-- `legal(STOP)` (30_encoding R98). -/
def State.legalStop (s : State) : Bool := s.held && !s.owesByte

end Sys2Proof.Machine
end

