-- ==== Sys2Proof/Machine/Operands.lean ====
section
/-! DEFINITION. The register block as the host sees it: which register an offset names (10_state R20, R34;
20_memory R61), what a read returns (R44) and what a write does, CMD apart (R22, R26 to R35); and the operands a
command reads there (30_encoding R93), with the shared acceptance checks (R97). -/

namespace Sys2Proof.Machine

/-- The register at an offset of a 16-bit access; none where the access is not at an even offset from 0x00 to 0x1E
(10_state R20, R34; 20_memory R61). -/
def regAt (offset : Nat) : Option Reg :=
  match offset with
  | 0x00 => some .ctrl
  | 0x02 => some .cmd
  | 0x04 => some .status
  | 0x06 => some .addr
  | 0x08 => some .count
  | 0x0A => some .completed
  | 0x0C => some .bufptr
  | 0x0E => some .txdata
  | 0x10 => some .rxdata
  | 0x12 => some .slave
  | 0x14 => some .reserved
  | 0x16 => some .reserved
  | 0x18 => some .reserved
  | 0x1A => some .reserved
  | 0x1C => some .reserved
  | 0x1E => some .reserved
  | _ => none

/-- The register a host access of a width reaches: only 16-bit accesses are defined (20_memory R61). -/
def accessedReg (width : AccessWidth) (offset : Nat) : Option Reg :=
  match width with
  | .w16 => regAt offset
  | .w8 => none
  | .w32 => none

/-- The offset that a host address names, none outside the block (20_memory R61, R74; 00_scope R4 REG_BASE). -/
def offsetOfAddress (a : Nat) : Option Nat :=
  if Config.regBase ≤ a ∧ a < Config.regBase + Config.regBlockSize then some (a - Config.regBase) else none

/-- What a host read of a register returns (10_state R21 to R34, R44). -/
def State.readReg (s : State) : Reg → Word
  | .ctrl => s.ctrlWord
  | .cmd => 0
  | .status => s.statusWord
  | .addr => s.addr.setWidth 16
  | .count => s.count
  | .completed => s.completed
  | .bufptr => s.bufptr
  | .txdata => s.txdata.setWidth 16
  | .rxdata => s.rxdata.setWidth 16
  | .slave => s.slave.setWidth 16
  | .reserved => 0

/-- A host write of `v` to CTRL (10_state R22). -/
def State.writeCtrl (s : State) (v : Word) : State :=
  let t : State := { s with byteIe := v.getLsbD 1, doneIe := v.getLsbD 2, errIe := v.getLsbD 3 }
  if v.getLsbD 0 = false ∧ s.en = true ∧ (s.sbusy = true ∨ s.held = true) then t.raise .requestRejected
  else { t with en := v.getLsbD 0 }

/-- A host write of `v` to ADDR (10_state R27, R35). -/
def State.writeAddr (s : State) (v : Word) : State :=
  if s.sbusy = true then s.raise .requestRejected else { s with addr := v.setWidth 8 }

/-- A host write of `v` to COUNT (10_state R28, R35). -/
def State.writeCount (s : State) (v : Word) : State :=
  if s.sbusy = true then s.raise .requestRejected else { s with count := v }

/-- A host write of `v` to BUFPTR (10_state R30, R35). -/
def State.writeBufptr (s : State) (v : Word) : State :=
  if s.sbusy = true then s.raise .requestRejected else { s with bufptr := v }

/-- A host write of `v` to TXDATA (10_state R31, R35). -/
def State.writeTxdata (s : State) (v : Word) : State :=
  if s.sbusy = true then s.raise .requestRejected else { s with txdata := v.setWidth 8 }

/-- A host write of `v` to SLAVE (10_state R33, R35). -/
def State.writeSlave (s : State) (v : Word) : State :=
  if s.sbusy = true ∨ s.held = true then s.raise .requestRejected else { s with slave := v.setWidth 7 }

/-- The first failing check of 3 to 5 of 30_encoding R97, shared by every command but NOP. -/
def State.busyError (s : State) : Option ErrCode :=
  if s.en = false then some .requestRejected
  else if s.sbusy = true then some .requestRejected
  else if s.ready = false then some .requestRejected
  else none

/-- The first failing check of a primitive command, `legal` being `legal(op)` (30_encoding R97 checks 3 to 5, 7). -/
def State.primitiveError (s : State) (legal : Bool) : Option ErrCode :=
  match s.busyError with
  | some e => some e
  | none => if legal = false then some .illegalCommand else none

/-- Check 8 of 30_encoding R97: the request leaves the EEPROM or system memory; sums without wrap
(60_exceptions R214). -/
def State.requestOutOfRange (s : State) : Bool :=
  decide (s.addr.toNat + s.count.toNat > Config.eepromSize) ||
    decide (s.bufptr.toNat + s.count.toNat > Config.sysMemSize)

/-- The first failing check of a transfer command (30_encoding R97 checks 3 to 6, 8). -/
def State.transferError (s : State) : Option ErrCode :=
  match s.busyError with
  | some e => some e
  | none =>
    if s.held = true then some .requestRejected
    else if s.requestOutOfRange = true then some .outOfRange
    else none

/-- Perform a command, or reject it with the error of its first failing check and nothing else
(30_encoding R97; 60_exceptions R220). -/
def State.performUnless (s : State) (e : Option ErrCode) (act : State → State) : Result :=
  match e with
  | some c => .next (s.raise c)
  | none => .next (act s)

end Sys2Proof.Machine
end

