-- ==== Sys2Proof/Machine/Primitive.lean ====
section
/-! DEFINITION. The primitive commands, OP 0x0 to 0x7 (40_bus_primitive R114 to R121). -/

namespace Sys2Proof.Machine

/-- NOP: nothing, in every state (40_bus_primitive R114; 30_encoding R97 check 2). -/
def execNop (s : State) : Result := .next s

/-- START_W: `issue_start(0)` (40_bus_primitive R115). -/
def execStartW (s : State) : Result :=
  s.performUnless (s.primitiveError s.legalStart) fun s => s.issueStart false

/-- START_R: `issue_start(1)` (40_bus_primitive R116). -/
def execStartR (s : State) : Result :=
  s.performUnless (s.primitiveError s.legalStart) fun s => s.issueStart true

/-- SEND_ADDR: `issue_tx(ADDR[7:0], 2)` (40_bus_primitive R117). -/
def execSendAddr (s : State) : Result :=
  s.performUnless (s.primitiveError s.legalSend) fun s => s.issueTx s.addr .addressing

/-- SEND_DATA: `issue_tx(TXDATA[7:0], 3)` (40_bus_primitive R118). -/
def execSendData (s : State) : Result :=
  s.performUnless (s.primitiveError s.legalSend) fun s => s.issueTx s.txdata .transmittingByte

/-- RECV_ACK: `issue_rx(1)` (40_bus_primitive R119). -/
def execRecvAck (s : State) : Result :=
  s.performUnless (s.primitiveError s.legalRecv) fun s => s.issueRx true

/-- RECV_NACK: `issue_rx(0)` (40_bus_primitive R120). -/
def execRecvNack (s : State) : Result :=
  s.performUnless (s.primitiveError s.legalRecv) fun s => s.issueRx false

/-- STOP: `issue_stop()` (40_bus_primitive R121). -/
def execStop (s : State) : Result :=
  s.performUnless (s.primitiveError s.legalStop) fun s => s.issueStop

end Sys2Proof.Machine
end

