-- ==== Sys2Proof/Machine/Transfer.lean ====
section
/-! DEFINITION. The transfer commands, OP 0x8 and 0x9 (41_block_transfer R161, R162). -/

namespace Sys2Proof.Machine

/-- XFER_W: `accept(0)` (41_block_transfer R161, R163). -/
def execXferW (s : State) : Result :=
  s.performUnless s.transferError fun s => s.accept false

/-- XFER_R: `accept(1)` (41_block_transfer R162, R163). -/
def execXferR (s : State) : Result :=
  s.performUnless s.transferError fun s => s.accept true

end Sys2Proof.Machine
end

