-- ==== Sys2Proof/Machine/Dispatch.lean ====
section
/-! DEFINITION. One arm per command (30_encoding R91, R97 check 9). -/

namespace Sys2Proof.Machine

def exec (i : Instr) (s : State) : Host.Outcome State Fault Refusal :=
  match i with
  | .nop => Sys2Proof.Machine.execNop s
  | .startW => Sys2Proof.Machine.execStartW s
  | .startR => Sys2Proof.Machine.execStartR s
  | .sendAddr => Sys2Proof.Machine.execSendAddr s
  | .sendData => Sys2Proof.Machine.execSendData s
  | .recvAck => Sys2Proof.Machine.execRecvAck s
  | .recvNack => Sys2Proof.Machine.execRecvNack s
  | .stop => Sys2Proof.Machine.execStop s
  | .xferW => Sys2Proof.Machine.execXferW s
  | .xferR => Sys2Proof.Machine.execXferR s

end Sys2Proof.Machine
end

