-- ==== Sys2Proof/Machine/Engine.lean ====
section
/-! DEFINITION. The engine's three agents: BUS (40_bus_primitive R122 to R126), SEQ (41_block_transfer R164 to R171)
and CE (R172 to R174). -/

namespace Sys2Proof.Machine

/-- The engine agent that is enabled, if one is: BUS exactly when READY = 0 (40_bus_primitive R125); CE when
READY = 1, CE_ARMED = 1 and its trigger holds (41_block_transfer R172); SEQ when SBUSY = 1, READY = 1 and
CE_ARMED = 0 (R164). At most one is (10_state R41). -/
def State.enabledAgent (s : State) : Option Agent :=
  if s.ready = false then some .bus
  else if s.ceArmed = true then
    if (s.sdir = false ∧ s.bstate = .addressing) ∨ (s.sdir = true ∧ s.bstate = .receivingByte) then some .ce
    else none
  else if s.sbusy = true then some .seq
  else none

/-- Completion of a transmit phase with the slave's answer (40_bus_primitive R122). -/
def State.completeTx (s : State) : TxAnswer → State
  | .ack => { s.emit (.tx s.shift .ack) with ready := true }
  | .nack => (s.emit (.tx s.shift .nack)).fail
  | .late => (s.emit (.txTimeout s.shift)).fail

/-- Completion of a receive phase with the slave's answer (40_bus_primitive R123). -/
def State.completeRx (s : State) : RxAnswer → State
  | .data v =>
    { s.emit (.rx v (if s.rxack = true then .ack else .nack)) with
      rxdata := v
      mrecv := if s.rxack = false then false else s.mrecv
      ready := true }
  | .late => (s.emit .rxTimeout).fail

/-- Completion of a stop phase, which takes no answer (40_bus_primitive R124). -/
def State.completeStop (s : State) : State :=
  { s.emit .stop with bstate := .idle, held := false, rxmode := false, mrecv := false, ready := true }

/-- The transmit phase in flight completes: the slave answers, then R122 (40_bus_primitive R112, R122). -/
def State.finishTx (s : State) : State :=
  { s with device := (s.device.answerTx s.shift).2 }.completeTx (s.device.answerTx s.shift).1

/-- The receive phase in flight completes: the slave answers, then R123 (40_bus_primitive R112, R123). -/
def State.finishRx (s : State) : State :=
  { s with device := s.device.answerRx.2 }.completeRx s.device.answerRx.1

/-- A step of BUS, selected by BSTATE (40_bus_primitive R125). -/
def busStep (s : State) : Result :=
  match s.bstate with
  | .startPending => .next s.finishTx
  | .addressing => .next s.finishTx
  | .transmittingByte => .next s.finishTx
  | .receivingByte => .next s.finishRx
  | .stopPending => .next s.completeStop
  | .idle => .fault .noPhaseInFlight

/-- SS_START (41_block_transfer R165). -/
def State.seqStart (s : State) : State :=
  { s.issueStart false with sstep := .ssAddr }

/-- SS_ADDR (41_block_transfer R166). -/
def State.seqAddr (s : State) : State :=
  if s.sdir = false then { s.issueTx s.addr .addressing with ceArmed := true, sstep := .ssStop }
  else { s.issueTx s.addr .addressing with sstep := .ssRestart }

/-- SS_RESTART (41_block_transfer R167). -/
def State.seqRestart (s : State) : State :=
  { s.issueStart true with sstep := .ssRdata }

/-- SS_RDATA (41_block_transfer R168). -/
def State.seqRdata (s : State) : State :=
  { s.issueRx false with ceArmed := true, sstep := .ssStop }

/-- SS_STOP (41_block_transfer R169). -/
def State.seqStop (s : State) : State :=
  { s.issueStop with sstep := .ssNext }

/-- SS_NEXT: count the byte, increment the address, loop or finish (41_block_transfer R170, R175). The comparison
is on the new value of COMPLETED. -/
def State.seqNext (s : State) : State :=
  let t : State := { s with completed := s.completed + 1, addr := s.addr + 1, byte := true }
  if t.completed.toNat < t.count.toNat then { t with sstep := .ssStart }
  else { t with done := true, sbusy := false, sstep := .ssIdle }

/-- SS_ABORT (41_block_transfer R171). -/
def State.seqAbort (s : State) : State :=
  { s with sbusy := false, sstep := .ssIdle }

/-- A step of SEQ, selected by SSTEP (41_block_transfer R164). -/
def seqStep (s : State) : Result :=
  match s.sstep with
  | .ssStart => .next s.seqStart
  | .ssAddr => .next s.seqAddr
  | .ssRestart => .next s.seqRestart
  | .ssRdata => .next s.seqRdata
  | .ssStop => .next s.seqStop
  | .ssNext => .next s.seqNext
  | .ssAbort => .next s.seqAbort
  | .ssIdle => .fault .sequencerIdle

/-- The copy engine's address for the byte in progress, without wrap (20_memory R66). -/
def State.ceAddress (s : State) : Nat := s.bufptr.toNat + s.completed.toNat

/-- The copy engine's move in a write (41_block_transfer R173). -/
def ceMoveWrite (s : State) : Result :=
  if s.ceAddress < Config.sysMemSize then
    .next ({ s with txdata := s.mem.read s.ceAddress, ceArmed := false }.issueTx (s.mem.read s.ceAddress)
      .transmittingByte)
  else .fault .outsideSystemMemory

/-- The copy engine's move in a read (41_block_transfer R174). -/
def ceMoveRead (s : State) : Result :=
  if s.ceAddress < Config.sysMemSize then
    .next { s with mem := s.mem.write s.ceAddress s.rxdata, ceArmed := false }
  else .fault .outsideSystemMemory

/-- A step of CE (41_block_transfer R172). -/
def ceStep (s : State) : Result :=
  if s.sdir = false then ceMoveWrite s else ceMoveRead s

/-- One step of an engine agent. -/
def agentStep (a : Agent) (s : State) : Result :=
  match a with
  | .bus => busStep s
  | .seq => seqStep s
  | .ce => ceStep s

end Sys2Proof.Machine
end

