-- ==== Sys2Proof/Machine/HostPort.lean ====
section
/-! DEFINITION. The host's steps (10_state R22 to R35, R44, R45; 20_memory R61, R65), the command register
(30_encoding R97), which agent steps next (00_scope R8 to R10), and the notation of host programs (30_encoding R95,
R96). -/

namespace Sys2Proof.Machine

/-- A host write of `v` to CMD is a command: decoded, checked and performed in this step (10_state R23; 30_encoding
R97). An illegal word raises IllegalCommand and nothing else (R92). -/
def writeCmd (v : Word) (s : State) : Result :=
  match decodeWord v with
  | .ok i => exec i s
  | .error _ => .next (s.raise .illegalCommand)

/-- A host write of `v` to a register (10_state R22 to R35). COMPLETED, RXDATA and the reserved offsets ignore
writes (R29, R32, R34). -/
def writeReg (r : Reg) (v : Word) (s : State) : Result :=
  match r with
  | .ctrl => .next (s.writeCtrl v)
  | .cmd => writeCmd v s
  | .status => .next (s.acknowledge v)
  | .addr => .next (s.writeAddr v)
  | .count => .next (s.writeCount v)
  | .completed => .next s
  | .bufptr => .next (s.writeBufptr v)
  | .txdata => .next (s.writeTxdata v)
  | .rxdata => .next s
  | .slave => .next (s.writeSlave v)
  | .reserved => .next s

/-- One step of the host or of the reset input. A read's value goes to `hostData` (log entry 9). -/
def hostStep (op : HostOp) (s : State) : Result :=
  match op with
  | .read width offset =>
    match accessedReg width offset with
    | some r => .next { s with hostData := s.readReg r }
    | none => .refused .badRegisterAccess
  | .write width offset v =>
    match accessedReg width offset with
    | some r => writeReg r v s
    | none => .refused .badRegisterAccess
  | .memRead a => .next { s with hostData := (s.mem.read a.toNat).setWidth 16 }
  | .memWrite a b => .next { s with mem := s.mem.write a.toNat b }
  | .reset d => .next (s.resetBlock d)

/-- One step of the machine: one enabled agent takes one step (00_scope R9). The host's next step is due when it
has waited its number of engine steps or no engine agent is enabled; with neither host nor engine the machine is
stuck (R10; log entries 1 and 10). -/
def nextStep (s : State) : Result :=
  match s.inputs, s.enabledAgent with
  | [], none => .fault .stuck
  | [], some a => agentStep a s
  | i :: rest, none => hostStep i.op { s with inputs := rest }
  | i :: rest, some a =>
    if i.after = 0 then hostStep i.op { s with inputs := rest }
    else agentStep a { s with inputs := { i with after := i.after - 1 } :: rest }

/-- The offset of a register (10_state R20); the reserved ones are named by their first offset. -/
def Reg.offset : Reg → Nat
  | .ctrl => 0x00
  | .cmd => 0x02
  | .status => 0x04
  | .addr => 0x06
  | .count => 0x08
  | .completed => 0x0A
  | .bufptr => 0x0C
  | .txdata => 0x0E
  | .rxdata => 0x10
  | .slave => 0x12
  | .reserved => 0x14

/-- `WR16 <reg>, <v>` (30_encoding R95). -/
def wr16 (r : Reg) (v : Word) : HostOp := .write .w16 r.offset v

/-- `RD16 <reg>` (30_encoding R95). -/
def rd16 (r : Reg) : HostOp := .read .w16 r.offset

/-- A command mnemonic used alone: `WR16 CMD, <word>` (30_encoding R96). -/
def command (i : Instr) : HostOp := wr16 .cmd (encode i)

/-- `CLRFLAGS`: `WR16 STATUS, 0x0380` (30_encoding R96). -/
def clrFlags : HostOp := wr16 .status 0x0380

/-- What `POLL <reg>, <mask>, <val>` waits for (30_encoding R95). -/
def State.pollHolds (s : State) (r : Reg) (mask val : Word) : Bool := (s.readReg r &&& mask) == val

/-- What `WAITREADY` waits for: `POLL STATUS, 0x0020, 0x0020` (30_encoding R96). -/
def State.waitReadyHolds (s : State) : Bool := s.pollHolds .status 0x0020 0x0020

/-- What `WAITIDLE` waits for: `POLL STATUS, 0x0060, 0x0020` (30_encoding R96). -/
def State.waitIdleHolds (s : State) : Bool := s.pollHolds .status 0x0060 0x0020

end Sys2Proof.Machine
end

