-- ==== Sys2Proof/Machine/Step.lean ====
section
/-! DEFINITION. The step of the machine, and how a command word comes to be its next step. -/

namespace Sys2Proof.Machine

/-- One step (00_scope R9, R10). -/
def step (s : State) : Host.Outcome State Fault Refusal := nextStep s

/-- `s` with the host about to write the word `w` to CMD in its very next step. The block fetches nothing
(20_memory R72): a command comes only from the host (log entry 2). -/
def State.withFetchWord (s : State) (nbits w : Nat) : State :=
  { s with inputs := { after := 0, op := wr16 .cmd (BitVec.ofNat 16 (w % 2 ^ nbits)) } :: s.inputs }

end Sys2Proof.Machine
end

