-- ==== Sys2Proof/Safety.lean ====
section
/-! DEFINITION. What counts as a safe state and a legal bus history, in the terms the statements use: the invariant of
10_state R41 with what it needs to be kept by every step, and the grammar of bus events (40_bus_primitive R131). -/

namespace Sys2Proof.Machine

/-- What 10_state R41 says of the bus: items 1 to 3, with what BSTATE says of the mode (R25). -/
abbrev State.BusConsistent (s : State) : Prop :=
  (s.ready = false → s.bstate ≠ .idle) ∧
  (s.held = false → s.bstate = .idle ∧ s.ready = true ∧ s.rxmode = false ∧ s.mrecv = false) ∧
  (s.bstate = .idle → s.held = false) ∧
  (s.mrecv = true → s.rxmode = true ∧ s.held = true) ∧
  (s.bstate = .stopPending → s.ready = false) ∧
  (s.bstate = .startPending → s.mrecv = s.rxmode) ∧
  (s.bstate = .startPending → s.ready = false → s.shift.getLsbD 0 = s.rxmode) ∧
  (s.bstate = .addressing → s.rxmode = false) ∧
  (s.bstate = .transmittingByte → s.rxmode = false) ∧
  (s.bstate = .receivingByte → s.rxmode = true) ∧
  (s.bstate = .receivingByte → s.ready = false → s.mrecv = true)

/-- What the sequencer's next action says of the bus and of the copy engine (41_block_transfer R165 to R174). -/
abbrev State.SequencerConsistent (s : State) : Prop :=
  match s.sstep with
  | .ssIdle => s.ceArmed = false
  | .ssStart => s.ceArmed = false ∧ s.held = false
  | .ssAddr => s.ceArmed = false ∧ s.held = true ∧ s.bstate = .startPending ∧ s.rxmode = false
  | .ssRestart => s.ceArmed = false ∧ s.held = true ∧ s.bstate = .addressing ∧ s.sdir = true
  | .ssRdata =>
    s.ceArmed = false ∧ s.held = true ∧ s.bstate = .startPending ∧ s.rxmode = true ∧ s.sdir = true
  | .ssStop =>
    s.held = true ∧
    (s.sdir = false → (s.ceArmed = true ∧ s.bstate = .addressing) ∨
      (s.ceArmed = false ∧ s.bstate = .transmittingByte)) ∧
    (s.sdir = true → s.bstate = .receivingByte ∧ s.rxack = false ∧ (s.ready = false → s.ceArmed = true) ∧
      (s.ready = true → s.mrecv = false))
  | .ssNext => s.ceArmed = false ∧ (s.ready = true → s.held = false) ∧ (s.ready = false → s.bstate = .stopPending)
  | .ssAbort => s.ceArmed = false ∧ (s.ready = true → s.held = false) ∧ (s.ready = false → s.bstate = .stopPending)

/-- What an active request satisfies (10_state R41 item 6; 20_memory R66): fewer bytes completed than requested, the
cells and the buffer bytes still to come inside their spaces. -/
abbrev State.RequestConsistent (s : State) : Prop :=
  s.sbusy = true →
    s.completed.toNat < s.count.toNat ∧
    s.completed.toNat ≤ s.addr.toNat ∧
    s.addr.toNat + s.count.toNat ≤ Config.eepromSize + s.completed.toNat ∧
    s.bufptr.toNat + s.count.toNat ≤ Config.sysMemSize

/-- The slave's data is in its canonical form. -/
abbrev Device.Wf (d : Device) : Prop :=
  match d with
  | .oracle _ _ _ => True
  | .reference r => r.cells.wf Config.eepromSize = true

/-- The invariant of the machine: 10_state R41 and what makes it inductive, the enable bit that an owner of the bus
keeps (R22), and the canonical form of memory. -/
structure State.Inv (s : State) : Prop where
  bus     : s.BusConsistent
  busy    : s.sbusy = false ↔ s.sstep = .ssIdle
  seq     : s.SequencerConsistent
  request : s.RequestConsistent
  enabled : s.sbusy = true ∨ s.held = true → s.en = true
  memory  : s.mem.wf Config.sysMemSize = true
  slave   : s.device.Wf

/-- The eight items of 10_state R41 as they stand there; in item 6, `a0` is ADDR at acceptance. -/
structure State.Rule41 (s : State) : Prop where
  item1 : (s.ready = false ↔ s.enabledAgent = some .bus) ∧ (s.ready = false → s.bstate ≠ .idle)
  item2 : (s.held = false → s.bstate = .idle ∧ s.ready = true ∧ s.rxmode = false ∧ s.mrecv = false) ∧
    (s.bstate = .idle → s.held = false)
  item3 : s.mrecv = true → s.rxmode = true ∧ s.held = true
  item4 : s.ceArmed = true → s.sbusy = true
  item5 : s.sbusy = false ↔ s.sstep = .ssIdle
  item6 : s.sbusy = true → s.completed.toNat < s.count.toNat ∧
    ∃ a0 : Nat, s.addr.toNat = (a0 + s.completed.toNat) % 256 ∧ a0 + s.count.toNat ≤ 256
  item7 : (s.enabledAgent = some .bus ↔ s.ready = false) ∧
    (s.enabledAgent = some .ce → s.ready = true ∧ s.ceArmed = true) ∧
    (s.enabledAgent = some .seq → s.ready = true ∧ s.ceArmed = false)
  item8 : s.ready = false → ∀ w : Word, ∀ t : State,
    hostStep (wr16 .cmd w) s = .next t → t.history = s.history ∧ t.bstate = s.bstate ∧ t.shift = s.shift

/-- The host step that the next step of the machine is, if it is one. -/
def State.dueOp (s : State) : Option HostOp :=
  match s.inputs, s.enabledAgent with
  | [], _ => none
  | i :: _, none => some i.op
  | i :: _, some _ => if i.after = 0 then some i.op else none

/-- The next step of the machine is the reset input. -/
def State.ResetDue (s : State) : Prop := ∃ d : ResetDraw, s.dueOp = some (.reset d)

/-- A host step that spares a buffer of `count` bytes at `bufptr`: no reset, and no write to a byte of the buffer
(20_memory R71). -/
def HostOp.sparesBuffer (op : HostOp) (bufptr count : Word) : Prop :=
  match op with
  | .read _ _ => True
  | .write _ _ _ => True
  | .memRead _ => True
  | .memWrite a _ => a.toNat < bufptr.toNat ∨ bufptr.toNat + count.toNat ≤ a.toNat
  | .reset _ => False

/-- Every coming host step spares the buffer of the request. -/
def State.HostSparesBuffer (s : State) : Prop := ∀ i ∈ s.inputs, i.op.sparesBuffer s.bufptr s.count

/-- The states `s` and `t` are the same but for what host steps may change under an active transfer: the interrupt
enables, the W1C flags and the error latch (41_block_transfer R179), what the host read and has still to do, and
bytes outside the buffer. -/
def State.SameTransfer (s t : State) : Prop :=
  s = { t with
    byteIe := s.byteIe, doneIe := s.doneIe, errIe := s.errIe, byte := s.byte, done := s.done, err := s.err
    errcode := s.errcode, hostData := s.hostData, inputs := s.inputs, mem := s.mem } ∧
  ∀ k, k < t.count.toNat → s.mem.read (t.bufptr.toNat + k) = t.mem.read (t.bufptr.toNat + k)

/-- Where a bus history stands in the grammar of 40_bus_primitive R131. -/
inductive BusPhase where
  /-- No transaction is open. -/
  | free
  /-- After S or Sr, before its control byte. -/
  | control
  /-- In transmit mode: `wbody*`. -/
  | sending
  /-- In receive mode, a byte owed: inside `rbody`. -/
  | owed
  /-- After the NACKed last byte. -/
  | received
  /-- After a failed phase: only the abort's stop may follow. -/
  | failed
deriving DecidableEq, Repr

/-- The grammar of 40_bus_primitive R131 as a machine over events: none where the event is not a continuation. -/
def BusPhase.next : BusPhase → BusEvent → Option BusPhase
  | .free, .start => some .control
  | .control, .tx b .ack => if b.getLsbD 0 = false then some .sending else some .owed
  | .control, .tx _ .nack => some .failed
  | .control, .txTimeout _ => some .failed
  | .sending, .tx _ .ack => some .sending
  | .sending, .tx _ .nack => some .failed
  | .sending, .txTimeout _ => some .failed
  | .sending, .stop => some .free
  | .sending, .repStart => some .control
  | .owed, .rx _ .ack => some .owed
  | .owed, .rx _ .nack => some .received
  | .owed, .rxTimeout => some .failed
  | .received, .stop => some .free
  | .received, .repStart => some .control
  | .failed, .stop => some .free
  | _, _ => none

/-- Where a history stands, from `p` on; none where it is not a prefix of a sentence of the grammar. -/
def busPhaseFrom (p : BusPhase) : List BusEvent → Option BusPhase
  | [] => some p
  | e :: es =>
    match p.next e with
    | some q => busPhaseFrom q es
    | none => none

/-- Where a history stands (40_bus_primitive R131). -/
def busPhase (h : List BusEvent) : Option BusPhase := busPhaseFrom .free h

/-- The place in the grammar that the block's state goes with. -/
def State.busMatches (s : State) (p : BusPhase) : Prop :=
  if s.held = false then p = .free
  else if s.bstate = .startPending ∧ s.ready = false then p = .control
  else if s.bstate = .stopPending then p = .sending ∨ p = .received ∨ p = .failed
  else if s.rxmode = false then p = .sending
  else if s.mrecv = true then p = .owed
  else p = .received

/-- The history is a prefix of a sentence of the grammar, and the state stands where the history does. -/
def State.BusLegal (s : State) : Prop := ∃ p, busPhase s.history = some p ∧ s.busMatches p

/-- `legal(op)` by operation code, as the table of 30_encoding R98 has it. -/
def legalOp (op : Nat) (s : State) : Bool :=
  match op with
  | 0x1 => !(s.rxmode && s.mrecv)
  | 0x2 => !(s.rxmode && s.mrecv)
  | 0x3 => s.held && !s.rxmode
  | 0x4 => s.held && !s.rxmode
  | 0x5 => s.held && s.rxmode && s.mrecv
  | 0x6 => s.held && s.rxmode && s.mrecv
  | 0x7 => s.held && !(s.rxmode && s.mrecv)
  | _ => false

/-- The rule performed at check 9 of 30_encoding R97, by operation code (R91). -/
def performOp (op : Nat) (s : State) : State :=
  match op with
  | 0x1 => s.issueStart false
  | 0x2 => s.issueStart true
  | 0x3 => s.issueTx s.addr .addressing
  | 0x4 => s.issueTx s.txdata .transmittingByte
  | 0x5 => s.issueRx true
  | 0x6 => s.issueRx false
  | 0x7 => s.issueStop
  | 0x8 => s.accept false
  | 0x9 => s.accept true
  | _ => s

/-- The state a result gives, if it gives one. -/
def stateOf : Result → Option State
  | .next t => some t
  | .fault _ => none
  | .refused _ => none

/-- `k` steps of the machine, if each gives a next state. -/
def runState (k : Nat) (s : State) : Option State := stateOf (Host.Core.run Sys2Proof.core k s)

end Sys2Proof.Machine
end

