-- ==== Sys2Proof/Certificates/Slice0/Obligations.lean ====
section
/-! DEFINITION. The statements for the provers. Each docstring names the rule of spec/ it formalises. -/

open Sys2Proof Sys2Proof.Machine

/-! ### Encoding -/

/-- Decoding the bytes of a command's word gives the command back and leaves the rest (30_encoding R91, R94).
The bytes come low byte first, a choice of the model's for `decode` alone (20_memory R62; log entry 15). -/
def Obligations.DecodeOfEncode : Prop :=
  ∀ (i : Instr) (rest : List Byte), decode (encodeBytes i ++ rest) = .ok (i, rest)

/-- Every word is one of the ten command words or illegal, NOP is the single word 0x0000, and an illegal word written
to CMD raises IllegalCommand and does nothing else, in every state (30_encoding R92). -/
def Obligations.EveryWordIsACommandOrIllegal : Prop :=
  ∀ w : Word,
    (w.extractLsb' 4 12 = 0 ∧ (w.extractLsb' 0 4).toNat < 0xA → ∃ i, decodeWord w = .ok i ∧ encode i = w) ∧
    (w.extractLsb' 4 12 ≠ 0 ∨ 0xA ≤ (w.extractLsb' 0 4).toNat →
      (∃ e, decodeWord w = .error e) ∧ (∀ i, encode i ≠ w) ∧
      ∀ s : State, hostStep (.write .w16 0x02 w) s = .next { s with err := true, errcode := .illegalCommand }) ∧
    (decodeWord w = .ok .nop ↔ w = 0x0000)

/-- The ten words of the opcode map decode to their commands and the reserved codes 0xA to 0xF to none
(30_encoding R91). -/
def Obligations.ListedWordsDecode : Prop :=
  decodeWord 0x0000 = .ok .nop ∧ decodeWord 0x0001 = .ok .startW ∧ decodeWord 0x0002 = .ok .startR ∧
  decodeWord 0x0003 = .ok .sendAddr ∧ decodeWord 0x0004 = .ok .sendData ∧ decodeWord 0x0005 = .ok .recvAck ∧
  decodeWord 0x0006 = .ok .recvNack ∧ decodeWord 0x0007 = .ok .stop ∧ decodeWord 0x0008 = .ok .xferW ∧
  decodeWord 0x0009 = .ok .xferR ∧
  decodeWord 0x000A = .error .reservedOpcode ∧ decodeWord 0x000B = .error .reservedOpcode ∧
  decodeWord 0x000C = .error .reservedOpcode ∧ decodeWord 0x000D = .error .reservedOpcode ∧
  decodeWord 0x000E = .error .reservedOpcode ∧ decodeWord 0x000F = .error .reservedOpcode ∧
  decodeWord 0x0010 = .error .reservedBitsSet ∧ decodeWord 0x8001 = .error .reservedBitsSet

/-! ### Commands: from the step to the meaning -/

/-- A step runs the decoded command: when the host's next step is due and is a 16-bit write of `w` to CMD, the step
takes that input and is `exec` of the command `w` decodes to, or the IllegalCommand latch where it decodes to none;
a CMD read returns 0 and changes nothing else (10_state R23). The queue of the host's steps, the placing of a word and
the field that holds what a read returned are the model's choices (log entries 1, 2 and 9). -/
def Obligations.StepRunsTheWrittenCommand : Prop :=
  (∀ (s : State) (n : Nat) (w : Word) (rest : List Input),
    s.inputs = { after := n, op := .write .w16 0x02 w } :: rest → (n = 0 ∨ s.enabledAgent = none) →
      (∀ i, decodeWord w = .ok i → step s = exec i { s with inputs := rest }) ∧
      (∀ e, decodeWord w = .error e →
        step s = .next { s with inputs := rest, err := true, errcode := .illegalCommand })) ∧
  (∀ (s : State) (w : Nat) (i : Instr), decodeTableWord 16 w = some i →
    step (s.withFetchWord 16 w) = exec i s) ∧
  (∀ s : State, hostStep (.read .w16 0x02) s = .next { s with hostData := 0x0000 })

/-- The acceptance checks of a command in their order, the first that fails deciding the outcome (30_encoding R97),
with `legal(op)` as the table of R98 has it. -/
def Obligations.AcceptanceOrder : Prop :=
  ∀ (s : State) (v : Word),
    let op := (v.extractLsb' 0 4).toNat
    hostStep (.write .w16 0x02 v) s = .next (
      if v.extractLsb' 4 12 ≠ 0 ∨ op ≥ 0xA then { s with err := true, errcode := .illegalCommand }
      else if op = 0x0 then s
      else if s.en = false then { s with err := true, errcode := .requestRejected }
      else if s.sbusy = true then { s with err := true, errcode := .requestRejected }
      else if s.ready = false then { s with err := true, errcode := .requestRejected }
      else if (op = 0x8 ∨ op = 0x9) ∧ s.held = true then { s with err := true, errcode := .requestRejected }
      else if 0x1 ≤ op ∧ op ≤ 0x7 ∧ legalOp op s = false then { s with err := true, errcode := .illegalCommand }
      else if (op = 0x8 ∨ op = 0x9) ∧
          (s.addr.toNat + s.count.toNat > 256 ∨ s.bufptr.toNat + s.count.toNat > 65536) then
        { s with err := true, errcode := .outOfRange }
      else performOp op s)

/-! ### Commands: where each completes, and with what -/

/-- NOP changes nothing, in every state (40_bus_primitive R114). -/
def Obligations.NopChangesNothing : Prop :=
  ∀ s : State, exec .nop s = .next s ∧ hostStep (.write .w16 0x02 0x0000) s = .next s

/-- START_W and START_R complete: the start or repeated start is on the bus, the control byte in SHIFT, and the mode
as the direction says (40_bus_primitive R115, R116, R113 `issue_start`). -/
def Obligations.StartCommandsComplete : Prop :=
  ∀ s : State, s.en = true → s.sbusy = false → s.ready = true → ¬(s.rxmode = true ∧ s.mrecv = true) →
    exec .startW s = .next { s with
      history := s.history ++ [if s.held = false then .start else .repStart]
      device := s.device.onEvent (if s.held = false then .start else .repStart)
      shift := s.slave ++ 0#1
      bstate := .startPending, held := true, rxmode := false, mrecv := false, ready := false } ∧
    exec .startR s = .next { s with
      history := s.history ++ [if s.held = false then .start else .repStart]
      device := s.device.onEvent (if s.held = false then .start else .repStart)
      shift := s.slave ++ 1#1
      bstate := .startPending, held := true, rxmode := true, mrecv := true, ready := false }

/-- SEND_ADDR and SEND_DATA complete: the register's byte is in SHIFT and its phase in flight; neither ADDR nor TXDATA
changes (40_bus_primitive R117, R118, R113 `issue_tx`). -/
def Obligations.SendCommandsComplete : Prop :=
  ∀ s : State, s.en = true → s.sbusy = false → s.ready = true → s.held = true → s.rxmode = false →
    exec .sendAddr s = .next { s with shift := s.addr, bstate := .addressing, ready := false } ∧
    exec .sendData s = .next { s with shift := s.txdata, bstate := .transmittingByte, ready := false }

/-- RECV_ACK and RECV_NACK complete: a receive phase in flight, the master's acknowledge in RXACK
(40_bus_primitive R119, R120, R113 `issue_rx`). -/
def Obligations.ReceiveCommandsComplete : Prop :=
  ∀ s : State, s.en = true → s.sbusy = false → s.ready = true → s.held = true → s.rxmode = true → s.mrecv = true →
    exec .recvAck s = .next { s with rxack := true, bstate := .receivingByte, ready := false } ∧
    exec .recvNack s = .next { s with rxack := false, bstate := .receivingByte, ready := false }

/-- STOP completes: a stop phase in flight (40_bus_primitive R121, R113 `issue_stop`). -/
def Obligations.StopCommandCompletes : Prop :=
  ∀ s : State, s.en = true → s.sbusy = false → s.ready = true → s.held = true →
    ¬(s.rxmode = true ∧ s.mrecv = true) →
    exec .stop s = .next { s with bstate := .stopPending, ready := false }

/-- XFER_W and XFER_R complete: `accept(dir)`, with COUNT = 0 completing at once (41_block_transfer R163). -/
def Obligations.TransferCommandsComplete : Prop :=
  ∀ s : State, s.en = true → s.sbusy = false → s.ready = true → s.held = false →
    s.addr.toNat + s.count.toNat ≤ 256 → s.bufptr.toNat + s.count.toNat ≤ 65536 →
    (s.count = 0 →
      exec .xferW s = .next { s with sdir := false, completed := 0, byte := false, done := true } ∧
      exec .xferR s = .next { s with sdir := true, completed := 0, byte := false, done := true }) ∧
    (s.count ≠ 0 →
      exec .xferW s = .next { s with
        sdir := false, completed := 0, byte := false, done := false, sbusy := true, sstep := .ssStart } ∧
      exec .xferR s = .next { s with
        sdir := true, completed := 0, byte := false, done := false, sbusy := true, sstep := .ssStart })

/-! ### Commands: where each is rejected, and what none of them touches -/

/-- A command other than NOP while the block is disabled, busy or mid-phase, and a transfer command while a manual
transaction holds the bus, raises RequestRejected and does nothing else (60_exceptions R213 items 1 to 4; 70_reset
R254, R255). -/
def Obligations.BusyCommandsAreRejected : Prop :=
  ∀ (i : Instr) (s : State),
    (i ≠ .nop → (s.en = false ∨ s.sbusy = true ∨ s.ready = false) →
      exec i s = .next { s with err := true, errcode := .requestRejected }) ∧
    ((i = .xferW ∨ i = .xferR) → s.held = true →
      exec i s = .next { s with err := true, errcode := .requestRejected })

/-- A transfer command whose range leaves the EEPROM or system memory raises OutOfRange and does nothing else; the
sums are taken without wrap (60_exceptions R214). -/
def Obligations.OutOfRangeIsRejected : Prop :=
  ∀ (i : Instr) (s : State), i = .xferW ∨ i = .xferR →
    s.en = true → s.sbusy = false → s.ready = true → s.held = false →
    (s.addr.toNat + s.count.toNat > 256 ∨ s.bufptr.toNat + s.count.toNat > 65536) →
    exec i s = .next { s with err := true, errcode := .outOfRange }

/-- A primitive command out of protocol order, and a CMD write that is no command, raises IllegalCommand and does
nothing else: an open manual transaction stays open (60_exceptions R215). -/
def Obligations.IllegalOrderIsRejected : Prop :=
  (∀ (s : State), s.en = true → s.sbusy = false → s.ready = true →
    (s.rxmode = true ∧ s.mrecv = true →
      exec .startW s = .next { s with err := true, errcode := .illegalCommand } ∧
      exec .startR s = .next { s with err := true, errcode := .illegalCommand }) ∧
    (¬(s.held = true ∧ s.rxmode = false) →
      exec .sendAddr s = .next { s with err := true, errcode := .illegalCommand } ∧
      exec .sendData s = .next { s with err := true, errcode := .illegalCommand }) ∧
    (¬(s.held = true ∧ s.rxmode = true ∧ s.mrecv = true) →
      exec .recvAck s = .next { s with err := true, errcode := .illegalCommand } ∧
      exec .recvNack s = .next { s with err := true, errcode := .illegalCommand }) ∧
    (¬(s.held = true ∧ ¬(s.rxmode = true ∧ s.mrecv = true)) →
      exec .stop s = .next { s with err := true, errcode := .illegalCommand })) ∧
  (∀ (s : State) (w : Word), w.extractLsb' 4 12 ≠ 0 ∨ 0xA ≤ (w.extractLsb' 0 4).toNat →
    hostStep (.write .w16 0x02 w) s = .next { s with err := true, errcode := .illegalCommand })

/-- Every command answers a next state in every state: no command faults or is refused (00_scope R10;
60_exceptions R216). -/
def Obligations.CommandsNeverStop : Prop :=
  ∀ (i : Instr) (s : State), ∃ t, exec i s = .next t

/-- A primitive command changes only the bus phase's state, the event history and the error latch: never the copy
engine, the transfer registers, the transfer flags, the enables, the hidden SSTEP or any byte of memory; it gives no
interrupt except through ERR; and what the host polls for is READY (40_bus_primitive R128). -/
def Obligations.PrimitiveCommandFrame : Prop :=
  (∀ (i : Instr) (s t : State), i ≠ .xferW → i ≠ .xferR → exec i s = .next t →
    t = { s with
      bstate := t.bstate, held := t.held, rxmode := t.rxmode, mrecv := t.mrecv, ready := t.ready, shift := t.shift
      rxack := t.rxack, history := t.history, device := t.device, err := t.err, errcode := t.errcode } ∧
    (∀ a, t.mem.read a = s.mem.read a) ∧
    (t.irq = true → s.irq = true ∨ (t.err = true ∧ t.errIe = true))) ∧
  (∀ s : State, s.waitReadyHolds = s.ready)

/-- A transfer command changes only SDIR, COMPLETED, BYTE, DONE, SBUSY, SSTEP and the error latch: no bus activity
and no byte of memory (41_block_transfer R161 to R163; 60_exceptions R214). -/
def Obligations.TransferCommandFrame : Prop :=
  ∀ (i : Instr) (s t : State), i = .xferW ∨ i = .xferR → exec i s = .next t →
    t = { s with
      sdir := t.sdir, completed := t.completed, byte := t.byte, done := t.done, sbusy := t.sbusy, sstep := t.sstep
      err := t.err, errcode := t.errcode } ∧
    (∀ a, t.mem.read a = s.mem.read a)

/-! ### Registers -/

/-- A host read of a register returns its fields with reserved bits 0 and changes no state of the block
(10_state R44; the layouts of R21, R24, R25 and 60_exceptions R210). The field that holds the value is the model's
choice (log entry 9). -/
def Obligations.RegisterReads : Prop :=
  ∀ s : State,
    hostStep (.read .w16 0x00) s = .next { s with hostData := s.ctrlWord } ∧
    hostStep (.read .w16 0x02) s = .next { s with hostData := 0 } ∧
    hostStep (.read .w16 0x04) s = .next { s with hostData := s.statusWord } ∧
    hostStep (.read .w16 0x06) s = .next { s with hostData := BitVec.ofNat 16 s.addr.toNat } ∧
    hostStep (.read .w16 0x08) s = .next { s with hostData := s.count } ∧
    hostStep (.read .w16 0x0A) s = .next { s with hostData := s.completed } ∧
    hostStep (.read .w16 0x0C) s = .next { s with hostData := s.bufptr } ∧
    hostStep (.read .w16 0x0E) s = .next { s with hostData := BitVec.ofNat 16 s.txdata.toNat } ∧
    hostStep (.read .w16 0x10) s = .next { s with hostData := BitVec.ofNat 16 s.rxdata.toNat } ∧
    hostStep (.read .w16 0x12) s = .next { s with hostData := BitVec.ofNat 16 s.slave.toNat } ∧
    (∀ o ∈ [0x14, 0x16, 0x18, 0x1A, 0x1C, 0x1E], hostStep (.read .w16 o) s = .next { s with hostData := 0 }) ∧
    s.ctrlWord.toNat = s.en.toNat + 2 * s.byteIe.toNat + 4 * s.doneIe.toNat + 8 * s.errIe.toNat ∧
    s.statusWord.toNat = s.bstate.code.toNat + 0x8 * s.held.toNat + 0x10 * s.rxmode.toNat + 0x20 * s.ready.toNat +
      0x40 * s.sbusy.toNat + 0x80 * s.byte.toNat + 0x100 * s.done.toNat + 0x200 * s.err.toNat +
      0x400 * s.errcode.code.toNat + 0x2000 * s.ceArmed.toNat + 0x4000 * s.mrecv.toNat + 0x8000 * s.sdir.toNat

/-- The numeric codes of BSTATE and ERRCODE as a STATUS read shows them (10_state R25; 60_exceptions R210). -/
def Obligations.StatusCodes : Prop :=
  ∀ s : State,
    (s.statusWord.extractLsb' 0 3).toNat = (match s.bstate with
      | .idle => 0 | .startPending => 1 | .addressing => 2 | .transmittingByte => 3 | .receivingByte => 4
      | .stopPending => 5) ∧
    (s.statusWord.extractLsb' 10 3).toNat = (match s.errcode with
      | .none => 0 | .busTimeout => 1 | .requestRejected => 2 | .outOfRange => 3 | .illegalCommand => 4)

/-- A host write to CTRL (10_state R22). -/
def Obligations.ControlRegisterWrite : Prop :=
  ∀ (s : State) (v : Word),
    hostStep (.write .w16 0x00 v) s = .next (
      if v.getLsbD 0 = false ∧ s.en = true ∧ (s.sbusy = true ∨ s.held = true) then
        { s with byteIe := v.getLsbD 1, doneIe := v.getLsbD 2, errIe := v.getLsbD 3
                 err := true, errcode := .requestRejected }
      else
        { s with byteIe := v.getLsbD 1, doneIe := v.getLsbD 2, errIe := v.getLsbD 3, en := v.getLsbD 0 })

/-- A host write to STATUS clears BYTE, DONE and ERR where it writes 1, and nothing else: ERRCODE stays
(10_state R26). -/
def Obligations.StatusRegisterWrite : Prop :=
  ∀ (s : State) (v : Word), ∃ t, hostStep (.write .w16 0x04 v) s = .next t ∧
    t = { s with byte := t.byte, done := t.done, err := t.err } ∧
    (t.byte = true ↔ s.byte = true ∧ v.getLsbD 7 = false) ∧
    (t.done = true ↔ s.done = true ∧ v.getLsbD 8 = false) ∧
    (t.err = true ↔ s.err = true ∧ v.getLsbD 9 = false)

/-- A locked write changes no register field and raises RequestRejected (10_state R35). -/
def Obligations.LockedWritesAreRejected : Prop :=
  ∀ (s : State) (v : Word),
    (s.sbusy = true → ∀ o ∈ [0x06, 0x08, 0x0C, 0x0E],
      hostStep (.write .w16 o v) s = .next { s with err := true, errcode := .requestRejected }) ∧
    (s.sbusy = true ∨ s.held = true →
      hostStep (.write .w16 0x12 v) s = .next { s with err := true, errcode := .requestRejected })

/-- An unlocked write sets its register, the bits the register lacks being ignored (10_state R27, R28, R30, R31,
R33). -/
def Obligations.RequestRegisterWrites : Prop :=
  ∀ (s : State) (v : Word), s.sbusy = false →
    hostStep (.write .w16 0x06 v) s = .next { s with addr := v.extractLsb' 0 8 } ∧
    hostStep (.write .w16 0x08 v) s = .next { s with count := v } ∧
    hostStep (.write .w16 0x0C v) s = .next { s with bufptr := v } ∧
    hostStep (.write .w16 0x0E v) s = .next { s with txdata := v.extractLsb' 0 8 } ∧
    (s.held = false → hostStep (.write .w16 0x12 v) s = .next { s with slave := v.extractLsb' 0 7 })

/-- The reserved offsets read 0, and a write there is ignored and raises no error (10_state R34). The field that holds
the value read is the model's choice (log entry 9). -/
def Obligations.ReservedOffsets : Prop :=
  ∀ (s : State) (v : Word), ∀ o ∈ [0x14, 0x16, 0x18, 0x1A, 0x1C, 0x1E],
    hostStep (.read .w16 o) s = .next { s with hostData := 0x0000 } ∧ hostStep (.write .w16 o v) s = .next s

/-- Writes to the read-only registers COMPLETED and RXDATA are ignored and raise no error (10_state R29, R32). -/
def Obligations.ReadOnlyRegistersIgnoreWrites : Prop :=
  ∀ (s : State) (v : Word),
    hostStep (.write .w16 0x0A v) s = .next s ∧ hostStep (.write .w16 0x10 v) s = .next s

/-- A register access has a meaning exactly when it is a 16-bit access at an even offset from 0x00 to 0x1E; any other
is refused; host addresses outside the block name no offset of it (20_memory R61). -/
def Obligations.OnlyAlignedWordAccessesAreDefined : Prop :=
  (∀ (s : State) (width : AccessWidth) (o : Nat) (v : Word),
    (width = .w16 ∧ o % 2 = 0 ∧ o ≤ 0x1E →
      (∃ t, hostStep (.read width o) s = .next t) ∧ (∃ t, hostStep (.write width o v) s = .next t)) ∧
    (¬(width = .w16 ∧ o % 2 = 0 ∧ o ≤ 0x1E) →
      hostStep (.read width o) s = .refused .badRegisterAccess ∧
      hostStep (.write width o v) s = .refused .badRegisterAccess)) ∧
  (∀ a : Nat, (∃ o, offsetOfAddress a = some o ∧ a = Config.regBase + o ∧ o ≤ 0x1F) ∨
    (offsetOfAddress a = none ∧ (a < Config.regBase ∨ Config.regBase + 0x1F < a)))

/-- The bits of a control byte: the slave address in bits 7:1, the direction in bit 0 (40_bus_primitive R113;
20_memory R68). -/
def Obligations.ControlByteLayout : Prop :=
  ∀ (sl : BitVec 7) (rw : Bool),
    (controlByte sl rw).extractLsb' 1 7 = sl ∧ (controlByte sl rw).getLsbD 0 = rw

/-- The shorthands of host programs: a mnemonic alone writes its word to CMD, CLRFLAGS clears the three flags and
nothing else, WAITREADY waits for READY = 1, WAITIDLE for READY = 1 and SBUSY = 0 (30_encoding R96). -/
def Obligations.HostShorthands : Prop :=
  ∀ s : State,
    (∀ i : Instr, hostStep (command i) s = exec i s) ∧
    hostStep clrFlags s = .next { s with byte := false, done := false, err := false } ∧
    (s.waitReadyHolds = true ↔ s.ready = true) ∧
    (s.waitIdleHolds = true ↔ s.ready = true ∧ s.sbusy = false)

/-! ### Flags, errors and interrupts -/

/-- IRQ is the OR of the enabled flags, is not gated by EN, and once asserted stays so until the host writes CTRL or
STATUS, starts a transfer or resets the block (10_state R39; 60_exceptions R218). -/
def Obligations.InterruptHeldUntilTheHostActs : Prop :=
  (∀ s : State, s.irq = true ↔
    (s.byte = true ∧ s.byteIe = true) ∨ (s.done = true ∧ s.doneIe = true) ∨ (s.err = true ∧ s.errIe = true)) ∧
  (∀ (s : State) (b : Bool), ({ s with en := b } : State).irq = s.irq) ∧
  (∀ s t : State, step s = .next t → s.irq = true → t.irq = false →
    (∃ v, s.dueOp = some (.write .w16 0x00 v)) ∨ (∃ v, s.dueOp = some (.write .w16 0x04 v)) ∨
    s.dueOp = some (.write .w16 0x02 0x0008) ∨ s.dueOp = some (.write .w16 0x02 0x0009) ∨ s.ResetDue)

/-- Each flag is cleared only by the host: by its W1C bit, BYTE and DONE also by a transfer command, all by reset;
never by a read or by an engine step (60_exceptions R218; 10_state R43). -/
def Obligations.FlagsClearedOnlyByTheHost : Prop :=
  ∀ s t : State, step s = .next t →
    (s.byte = true → t.byte = false →
      (∃ v : Word, s.dueOp = some (.write .w16 0x04 v) ∧ v.getLsbD 7 = true) ∨
      s.dueOp = some (.write .w16 0x02 0x0008) ∨ s.dueOp = some (.write .w16 0x02 0x0009) ∨ s.ResetDue) ∧
    (s.done = true → t.done = false →
      (∃ v : Word, s.dueOp = some (.write .w16 0x04 v) ∧ v.getLsbD 8 = true) ∨
      s.dueOp = some (.write .w16 0x02 0x0008) ∨ s.dueOp = some (.write .w16 0x02 0x0009) ∨ s.ResetDue) ∧
    (s.err = true → t.err = false →
      (∃ v : Word, s.dueOp = some (.write .w16 0x04 v) ∧ v.getLsbD 9 = true) ∨ s.ResetDue)

/-- ERRCODE changes only with ERR set, or by reset; ERR is set only with a code; and BusTimeout comes only from a BUS
step that completes a start, an address byte, a data byte or a receive, never a stop (60_exceptions R211, R212,
R221). -/
def Obligations.ErrorLatchDiscipline : Prop :=
  ∀ s t : State, step s = .next t →
    (t.errcode ≠ s.errcode → t.err = true ∨ s.ResetDue) ∧
    (s.err = false → t.err = true → t.errcode ≠ .none) ∧
    (t.errcode = .busTimeout → s.errcode ≠ .busTimeout →
      s.dueOp = none ∧ s.ready = false ∧
      (s.bstate = .startPending ∨ s.bstate = .addressing ∨ s.bstate = .transmittingByte ∨
        s.bstate = .receivingByte))

/-- EN is not cleared while a transfer is active or a transaction open, but by reset (10_state R22). -/
def Obligations.EnableKeptByTheOwnerOfTheBus : Prop :=
  ∀ s t : State, step s = .next t → s.en = true → (s.sbusy = true ∨ s.held = true) → t.en = false → s.ResetDue

/-! ### Engine steps -/

/-- Which engine agent is enabled, and that a step in which the host is not due is a step of that agent
(40_bus_primitive R125; 41_block_transfer R164, R172; 00_scope R9). The queue in which the host's steps wait is the
model's choice (log entry 1). -/
def Obligations.EnabledAgents : Prop :=
  ∀ s : State,
    (s.enabledAgent = some .bus ↔ s.ready = false) ∧
    (s.enabledAgent = some .seq ↔ s.sbusy = true ∧ s.ready = true ∧ s.ceArmed = false) ∧
    (s.enabledAgent = some .ce ↔ s.ceArmed = true ∧ s.ready = true ∧
      ((s.sdir = false ∧ s.bstate = .addressing) ∨ (s.sdir = true ∧ s.bstate = .receivingByte))) ∧
    (∀ a, s.enabledAgent = some a → s.dueOp = none →
      (s.inputs = [] ∧ step s = agentStep a s) ∨
      (∃ i rest, s.inputs = i :: rest ∧ 0 < i.after ∧
        step s = agentStep a { s with inputs := { i with after := i.after - 1 } :: rest }))

/-- A transmit phase completes with the slave's answer: acknowledged, or aborted with BusTimeout
(40_bus_primitive R122, R126). -/
def Obligations.TransmitCompletion : Prop :=
  ∀ (s : State) (a : TxAnswer) (d : Device), s.ready = false →
    (s.bstate = .startPending ∨ s.bstate = .addressing ∨ s.bstate = .transmittingByte) →
    s.device.answerTx s.shift = (a, d) →
    (a = .ack → agentStep .bus s = .next { s with
      history := s.history ++ [.tx s.shift .ack], device := d.onEvent (.tx s.shift .ack), ready := true }) ∧
    (a = .nack → agentStep .bus s = .next { s with
      history := s.history ++ [.tx s.shift .nack], device := d.onEvent (.tx s.shift .nack)
      err := true, errcode := .busTimeout, ceArmed := false
      sstep := if s.sbusy = true then .ssAbort else s.sstep
      bstate := .stopPending, ready := false }) ∧
    (a = .late → agentStep .bus s = .next { s with
      history := s.history ++ [.txTimeout s.shift], device := d.onEvent (.txTimeout s.shift)
      err := true, errcode := .busTimeout, ceArmed := false
      sstep := if s.sbusy = true then .ssAbort else s.sstep
      bstate := .stopPending, ready := false })

/-- A receive phase completes with the slave's byte, or is aborted with BusTimeout (40_bus_primitive R123, R126). -/
def Obligations.ReceiveCompletion : Prop :=
  ∀ (s : State) (a : RxAnswer) (d : Device), s.ready = false → s.bstate = .receivingByte →
    s.device.answerRx = (a, d) →
    (∀ v, a = .data v → agentStep .bus s = .next { s with
      history := s.history ++ [.rx v (if s.rxack = true then .ack else .nack)]
      device := d.onEvent (.rx v (if s.rxack = true then .ack else .nack))
      rxdata := v, mrecv := (if s.rxack = false then false else s.mrecv), ready := true }) ∧
    (a = .late → agentStep .bus s = .next { s with
      history := s.history ++ [.rxTimeout], device := d.onEvent .rxTimeout
      err := true, errcode := .busTimeout, ceArmed := false
      sstep := if s.sbusy = true then .ssAbort else s.sstep
      bstate := .stopPending, ready := false })

/-- A stop phase completes without an answer and frees the bus (40_bus_primitive R124). -/
def Obligations.StopCompletion : Prop :=
  ∀ s : State, s.ready = false → s.bstate = .stopPending →
    agentStep .bus s = .next { s with
      history := s.history ++ [.stop], device := s.device.onEvent .stop
      bstate := .idle, held := false, rxmode := false, mrecv := false, ready := true }

/-- The sequencer's phases: the start (which emits S), the address, the repeated start (which emits Sr), the receive
and the stop (41_block_transfer R165, R166, R167, R168, R169). -/
def Obligations.SequencerIssuesPhases : Prop :=
  ∀ s : State, s.Inv → s.enabledAgent = some .seq →
    (s.sstep = .ssStart → agentStep .seq s = .next { s with
      history := s.history ++ [.start], device := s.device.onEvent .start, shift := s.slave ++ 0#1
      bstate := .startPending, held := true, rxmode := false, mrecv := false, ready := false
      sstep := .ssAddr }) ∧
    (s.sstep = .ssAddr → s.sdir = false → agentStep .seq s = .next { s with
      shift := s.addr, bstate := .addressing, ready := false, ceArmed := true, sstep := .ssStop }) ∧
    (s.sstep = .ssAddr → s.sdir = true → agentStep .seq s = .next { s with
      shift := s.addr, bstate := .addressing, ready := false, sstep := .ssRestart }) ∧
    (s.sstep = .ssRestart → agentStep .seq s = .next { s with
      history := s.history ++ [.repStart], device := s.device.onEvent .repStart, shift := s.slave ++ 1#1
      bstate := .startPending, held := true, rxmode := true, mrecv := true, ready := false
      sstep := .ssRdata }) ∧
    (s.sstep = .ssRdata → agentStep .seq s = .next { s with
      rxack := false, bstate := .receivingByte, ready := false, ceArmed := true, sstep := .ssStop }) ∧
    (s.sstep = .ssStop → agentStep .seq s = .next { s with
      bstate := .stopPending, ready := false, sstep := .ssNext })

/-- SS_NEXT counts the byte, increments ADDR modulo 256 and loops or finishes; SS_ABORT ends the request and keeps
COMPLETED and ADDR (41_block_transfer R170, R171). -/
def Obligations.SequencerCountsBytes : Prop :=
  ∀ s : State, s.Inv → s.enabledAgent = some .seq →
    (s.sstep = .ssNext → s.completed.toNat + 1 < s.count.toNat → agentStep .seq s = .next { s with
      completed := BitVec.ofNat 16 (s.completed.toNat + 1)
      addr := BitVec.ofNat 8 ((s.addr.toNat + 1) % 256)
      byte := true, sstep := .ssStart }) ∧
    (s.sstep = .ssNext → s.completed.toNat + 1 = s.count.toNat → agentStep .seq s = .next { s with
      completed := s.count
      addr := BitVec.ofNat 8 ((s.addr.toNat + 1) % 256)
      byte := true, done := true, sbusy := false, sstep := .ssIdle }) ∧
    (s.sstep = .ssAbort → agentStep .seq s = .next { s with sbusy := false, sstep := .ssIdle })

/-- The copy engine's move: in a write, buffer byte COMPLETED into TXDATA and onto the bus; in a read, RXDATA into
buffer byte COMPLETED and into no other byte of memory (41_block_transfer R173, R174; 20_memory R66). -/
def Obligations.CopyEngineMoves : Prop :=
  ∀ s : State, s.Inv → s.enabledAgent = some .ce →
    s.bufptr.toNat + s.completed.toNat < 65536 ∧
    (s.sdir = false → agentStep .ce s = .next { s with
      txdata := s.mem.read (s.bufptr.toNat + s.completed.toNat)
      shift := s.mem.read (s.bufptr.toNat + s.completed.toNat)
      ceArmed := false, bstate := .transmittingByte, ready := false }) ∧
    (s.sdir = true → ∃ t, agentStep .ce s = .next t ∧ t = { s with mem := t.mem, ceArmed := false } ∧
      t.mem.read (s.bufptr.toNat + s.completed.toNat) = s.rxdata ∧
      ∀ a, a ≠ s.bufptr.toNat + s.completed.toNat → t.mem.read a = s.mem.read a)

/-! ### The reference slave -/

/-- The reference slave's initial state: mode Off and ctl = 0, with any device address, cells and pointer; it answers
Nack until a start comes; beside the machine after reset it meets the invariant; and the reset input leaves it, in
any state, as it is (20_memory R76). -/
def Obligations.ReferenceSlaveInitially : Prop :=
  ∀ (devAddr : BitVec 7) (cells : Memory) (ptr : Byte),
    RefSlave.initial devAddr cells ptr = ⟨devAddr, cells, ptr, .off, false⟩ ∧
    (∀ b, (Device.initialReference devAddr cells ptr).answerTx b =
      (.nack, Device.initialReference devAddr cells ptr)) ∧
    (∀ e ∈ [BusEvent.start, .repStart], ∀ b : Byte, b.extractLsb' 1 7 = devAddr →
      (((Device.initialReference devAddr cells ptr).onEvent e).answerTx b).1 = .ack) ∧
    (cells.wf 256 = true →
      ({ State.reset with device := Device.initialReference devAddr cells ptr } : State).Inv) ∧
    (∀ (s : State) (r : RefSlave) (d : ResetDraw), s.device = .reference r →
      ∃ t, hostStep (.reset d) s = .next t ∧ t.device = .reference r)

/-- The reference slave on the start, repeated start and stop events, its answer to a transmitted byte and its answer
to a receive phase (20_memory R77, R78, R79). -/
def Obligations.ReferenceSlaveAnswers : Prop :=
  ∀ (r : RefSlave) (b : Byte),
    Device.onEvent (.reference r) .start = .reference { r with mode := .off, ctl := true } ∧
    Device.onEvent (.reference r) .repStart = .reference { r with mode := .off, ctl := true } ∧
    Device.onEvent (.reference r) .stop = .reference { r with mode := .off, ctl := false } ∧
    (r.ctl = true → b.extractLsb' 1 7 = r.devAddr → Device.answerTx (.reference r) b =
      (.ack, .reference { r with ctl := false, mode := if b.getLsbD 0 = false then .wantAddr else .readData })) ∧
    (r.ctl = true → b.extractLsb' 1 7 ≠ r.devAddr → Device.answerTx (.reference r) b =
      (.nack, .reference { r with ctl := false, mode := .off })) ∧
    (r.ctl = false → r.mode = .wantAddr → Device.answerTx (.reference r) b =
      (.ack, .reference { r with ptr := b, mode := .writeData })) ∧
    (r.ctl = false → r.mode = .writeData → r.cells.wf 256 = true → ∃ q : RefSlave,
      Device.answerTx (.reference r) b = (.ack, .reference q) ∧
      q = { r with cells := q.cells, ptr := BitVec.ofNat 8 ((r.ptr.toNat + 1) % 256) } ∧
      q.cells.read r.ptr.toNat = b ∧ ∀ a, a ≠ r.ptr.toNat → q.cells.read a = r.cells.read a) ∧
    (r.ctl = false → (r.mode = .off ∨ r.mode = .readData) →
      Device.answerTx (.reference r) b = (.nack, .reference r)) ∧
    (r.mode = .readData → Device.answerRx (.reference r) = (.data (r.cells.read r.ptr.toNat),
      .reference { r with ptr := BitVec.ofNat 8 ((r.ptr.toNat + 1) % 256) })) ∧
    (r.mode ≠ .readData → Device.answerRx (.reference r) = (.data 0xFF, .reference r))

/-! ### Memory -/

/-- A host read of system memory returns the byte last written there (20_memory R65, R69). The field that holds the
value read is the model's choice (log entry 9). -/
def Obligations.HostMemoryReadsLastWrite : Prop :=
  ∀ (s : State) (a : BitVec 16) (b : Byte), s.mem.wf 65536 = true →
    ∃ t, hostStep (.memWrite a b) s = .next t ∧ t = { s with mem := t.mem } ∧
      ∀ c : BitVec 16, hostStep (.memRead c) t = .next { t with
        hostData := BitVec.ofNat 16 (if c = a then b.toNat else (s.mem.read c.toNat).toNat) }

/-- A step changes a byte of system memory only as the host's write to it, or as the copy engine's move of the
received byte to buffer byte COMPLETED, which lies inside the buffer (20_memory R65). -/
def Obligations.MemoryWriters : Prop :=
  ∀ (s t : State) (a : Nat), s.Inv → step s = .next t → t.mem.read a ≠ s.mem.read a →
    (∃ (x : BitVec 16) (b : Byte), s.dueOp = some (.memWrite x b) ∧ a = x.toNat ∧ t.mem.read a = b) ∨
    (s.dueOp = none ∧ s.enabledAgent = some .ce ∧ s.sdir = true ∧ t.mem.read a = s.rxdata ∧
      a = s.bufptr.toNat + s.completed.toNat ∧ s.completed.toNat < s.count.toNat)

/-- Which steps change each register: ADDR, COUNT, BUFPTR, TXDATA and SLAVE only an unlocked host write, their one
engine step or reset; RXDATA only a completed receive or reset; COMPLETED only a transfer command, SS_NEXT or reset
(10_state R27 to R33; 41_block_transfer R175). -/
def Obligations.RegisterWriters : Prop :=
  ∀ s t : State, step s = .next t → ¬s.ResetDue →
    (t.addr ≠ s.addr → (s.sbusy = false ∧ ∃ v, s.dueOp = some (.write .w16 0x06 v)) ∨
      (s.dueOp = none ∧ s.enabledAgent = some .seq ∧ s.sstep = .ssNext ∧ t.addr = s.addr + 1)) ∧
    (t.count ≠ s.count → s.sbusy = false ∧ s.dueOp = some (.write .w16 0x08 t.count)) ∧
    (t.bufptr ≠ s.bufptr → s.sbusy = false ∧ s.dueOp = some (.write .w16 0x0C t.bufptr)) ∧
    (t.txdata ≠ s.txdata → (s.sbusy = false ∧ ∃ v, s.dueOp = some (.write .w16 0x0E v)) ∨
      (s.dueOp = none ∧ s.enabledAgent = some .ce ∧ s.sdir = false)) ∧
    (t.slave ≠ s.slave → s.sbusy = false ∧ s.held = false ∧ ∃ v, s.dueOp = some (.write .w16 0x12 v)) ∧
    (t.rxdata ≠ s.rxdata → s.dueOp = none ∧ s.ready = false ∧ s.bstate = .receivingByte) ∧
    (t.completed ≠ s.completed →
      s.dueOp = some (.write .w16 0x02 0x0008) ∨ s.dueOp = some (.write .w16 0x02 0x0009) ∨
      (s.dueOp = none ∧ s.enabledAgent = some .seq ∧ s.sstep = .ssNext ∧ t.completed = s.completed + 1))

/-- The event history only grows, under reset too (10_state R46; 70_reset R250). -/
def Obligations.HistoryOnlyGrows : Prop :=
  ∀ s t : State, step s = .next t → ∃ es, t.history = s.history ++ es ∧ es.length ≤ 1

/-! ### Reset -/

/-- After a reset every piece of the block's state holds its reset value, the unspecified ones their draws; the bus
history, system memory and the slave are unchanged: no stop is emitted and no error raised (10_state R40; 70_reset
R250, R251, R252). That `hostData` and the coming `inputs` are unchanged too is the model's choice (log entries 9
and 17). -/
def Obligations.ResetInput : Prop :=
  ∀ (s : State) (d : ResetDraw), ∃ t, hostStep (.reset d) s = .next t ∧
    t.ctrlWord = 0x0000 ∧ t.statusWord = 0x0020 ∧ t.completed = 0x0000 ∧ t.sstep = .ssIdle ∧ t.irq = false ∧
    t.addr = d.addr ∧ t.count = d.count ∧ t.bufptr = d.bufptr ∧ t.txdata = d.txdata ∧ t.rxdata = d.rxdata ∧
    t.slave = d.slave ∧ t.shift = d.shift ∧ t.rxack = d.rxack ∧
    t.history = s.history ∧ t.mem = s.mem ∧ t.device = s.device ∧ t.hostData = s.hostData ∧ t.inputs = s.inputs ∧
    t.enabledAgent = none ∧
    (∃ u, exec .startW { t with en := true } = .next u ∧ u.history = s.history ++ [.start]) ∧
    (∃ u, exec .startR { t with en := true } = .next u ∧ u.history = s.history ++ [.start])

/-- The state the machine starts in has the reset values the spec gives: CTRL, STATUS, COMPLETED, SSTEP and IRQ
(10_state R40). -/
def Obligations.StateAfterReset : Prop :=
  State.reset.ctrlWord = 0x0000 ∧ State.reset.statusWord = 0x0020 ∧ State.reset.completed = 0x0000 ∧
  State.reset.sstep = .ssIdle ∧ State.reset.irq = false

/-! ### Invariants and whole-machine rules -/

/-- The invariant holds after reset, whatever the slave, the memory and the host's coming steps. -/
def Obligations.InvariantAfterReset : Prop :=
  State.reset.Inv ∧
  ∀ (m : Memory) (d : Device) (ins : List Input), m.wf 65536 = true → d.Wf →
    ({ State.reset with mem := m, device := d, inputs := ins } : State).Inv

/-- Every step keeps the invariant of 10_state R41 (with what makes it inductive, the canonical form of memory among
it): from every state that meets it, whatever the host and the slave do. -/
def Obligations.EveryStepKeepsTheInvariant : Prop :=
  ∀ s t : State, s.Inv → step s = .next t → t.Inv

/-- The invariant gives the eight items of 10_state R41 as they stand there. -/
def Obligations.InvariantGivesRule41 : Prop :=
  ∀ s : State, s.Inv → s.Rule41

/-- From a state that meets the invariant the machine stops in one way only by a fault: no agent is enabled, the bus
is free or held by a manual transaction with no phase in flight, no transfer is active, and the host makes no further
step. A step is refused only for a register access that is not an aligned 16-bit one (00_scope R10; 60_exceptions
R216; 20_memory R61, R73). What counts as a fault and what as a refusal is the model's choice (log entries 10
and 13). -/
def Obligations.TheEngineNeverFaults : Prop :=
  ∀ s : State, s.Inv →
    (∀ f, step s = .fault f →
      f = .stuck ∧ s.inputs = [] ∧ s.enabledAgent = none ∧ s.ready = true ∧ s.sbusy = false) ∧
    (∀ r, step s = .refused r →
      r = .badRegisterAccess ∧ ∃ (w : AccessWidth) (o : Nat),
        ¬(w = .w16 ∧ o % 2 = 0 ∧ o ≤ 0x1E) ∧
        (s.dueOp = some (.read w o) ∨ ∃ v, s.dueOp = some (.write w o v)))

/-- While a transfer is active or a phase is in flight some engine agent is enabled: the machine can be stuck only
with the engine at rest (00_scope R10; 10_state R41). -/
def Obligations.ABusyEngineIsEnabled : Prop :=
  ∀ s : State, s.Inv → (s.sbusy = true ∨ s.ready = false) → ∃ a, s.enabledAgent = some a

/-- Single flight: while a transfer is active no host step but reset changes anything of it; all it can change is the
interrupt enables, the W1C flags (only to 0), the error latch, what the host last read, and a byte of system memory
the host writes (41_block_transfer R179). -/
def Obligations.SingleFlight : Prop :=
  ∀ (s t : State) (op : HostOp), s.Inv → s.sbusy = true → (∀ d, op ≠ .reset d) → hostStep op s = .next t →
    t = { s with
      byteIe := t.byteIe, doneIe := t.doneIe, errIe := t.errIe, byte := t.byte, done := t.done, err := t.err
      errcode := t.errcode, hostData := t.hostData, mem := t.mem } ∧
    (t.byte = true → s.byte = true) ∧ (t.done = true → s.done = true) ∧
    ((∀ a b, op ≠ .memWrite a b) → t.mem = s.mem) ∧
    (∀ i : Instr, i ≠ .nop → op = .write .w16 0x02 (encode i) →
      t = { s with err := true, errcode := .requestRejected }) ∧
    (∀ o ∈ [0x06, 0x08, 0x0C, 0x0E, 0x12], ∀ v, op = .write .w16 o v →
      t = { s with err := true, errcode := .requestRejected })

/-- The bus history stays inside the grammar of 40_bus_primitive R131, and in step with the block's state, under
every step but a reset. -/
def Obligations.EveryStepKeepsTheBusGrammar : Prop :=
  ∀ s t : State, s.Inv → s.BusLegal → ¬s.ResetDue → step s = .next t → t.BusLegal

/-! ### Transfers -/

/-- One byte of a block write with every answer Ack: nine engine steps put exactly S, the control byte, the cell
address, the buffer byte and P on the bus, and count the byte (41_block_transfer R176). -/
def Obligations.WriteByteTransaction : Prop :=
  ∀ (s : State) (tx : List TxAnswer) (rx : List RxAnswer) (n : Nat),
    s.Inv → s.sbusy = true → s.sdir = false → s.sstep = .ssStart → s.inputs = [] →
    s.device = .oracle (.ack :: .ack :: .ack :: tx) rx n →
    ∃ t, runState 9 s = some t ∧
      t.history = s.history ++ [.start, .tx (s.slave ++ 0#1) .ack, .tx s.addr .ack,
        .tx (s.mem.read (s.bufptr.toNat + s.completed.toNat)) .ack, .stop] ∧
      t.completed = s.completed + 1 ∧ t.addr = s.addr + 1 ∧ t.byte = true ∧ t.mem = s.mem ∧
      t.device = .oracle tx rx n ∧ t.bstate = .idle ∧ t.held = false ∧
      (t.sbusy = true ↔ s.completed.toNat + 1 < s.count.toNat)

/-- One byte of a block read with every transmit answer Ack and the byte `v`: twelve engine steps put exactly S, the
control byte, the cell address, Sr, the read control byte, the NACKed byte and P on the bus, and write `v` to the
buffer (41_block_transfer R177). -/
def Obligations.ReadByteTransaction : Prop :=
  ∀ (s : State) (v : Byte) (tx : List TxAnswer) (rx : List RxAnswer) (n : Nat),
    s.Inv → s.sbusy = true → s.sdir = true → s.sstep = .ssStart → s.inputs = [] →
    s.device = .oracle (.ack :: .ack :: .ack :: tx) (.data v :: rx) n →
    ∃ t, runState 12 s = some t ∧
      t.history = s.history ++ [.start, .tx (s.slave ++ 0#1) .ack, .tx s.addr .ack, .repStart,
        .tx (s.slave ++ 1#1) .ack, .rx v .nack, .stop] ∧
      t.completed = s.completed + 1 ∧ t.addr = s.addr + 1 ∧ t.byte = true ∧
      t.mem.read (s.bufptr.toNat + s.completed.toNat) = v ∧
      (∀ a, a ≠ s.bufptr.toNat + s.completed.toNat → t.mem.read a = s.mem.read a) ∧
      t.device = .oracle tx rx n ∧ t.bstate = .idle ∧ t.held = false ∧
      (t.sbusy = true ↔ s.completed.toNat + 1 < s.count.toNat)

/-- Every accepted request ends, whatever the slave answers, within 9 engine steps a byte in a write and 12 in a
read; it ends complete or aborted, in the states 41_block_transfer R183 gives (R182, R180). -/
def Obligations.EveryTransferEnds : Prop :=
  ∀ (i : Instr) (s₀ s : State), i = .xferW ∨ i = .xferR → s₀.Inv → s₀.inputs = [] →
    exec i s₀ = .next s → s.sbusy = true → s₀.sbusy = false →
    ∃ (n : Nat) (t : State), n ≤ (if i = .xferR then 12 else 9) * s₀.count.toNat ∧ runState n s = some t ∧
      t.sbusy = false ∧ t.sstep = .ssIdle ∧ t.bstate = .idle ∧ t.held = false ∧ t.ready = true ∧
      t.ceArmed = false ∧ t.sdir = decide (i = .xferR) ∧ t.count = s₀.count ∧ t.bufptr = s₀.bufptr ∧
      ((t.completed = s₀.count ∧ t.done = true ∧ t.byte = true ∧
          t.addr.toNat = (s₀.addr.toNat + s₀.count.toNat) % 256) ∨
       (t.completed.toNat < s₀.count.toNat ∧ t.done = false ∧ t.err = true ∧ t.errcode = .busTimeout ∧
          t.addr.toNat = s₀.addr.toNat + t.completed.toNat ∧ (t.byte = true ↔ 0 < t.completed.toNat)))

/-- Host steps do not disturb a transfer: while it is active, `k` steps with host steps among them, none of which is a
reset or writes a byte of the buffer, give the same transfer as `j` engine steps alone, `j` being `k` less the host
steps taken (41_block_transfer R178, R179, R181, R182; 20_memory R71). With the statements about runs without host
steps it gives theirs for runs with them. The queue of the host's steps is the model's choice (log entry 1). -/
def Obligations.HostStepsDoNotDisturbATransfer : Prop :=
  ∀ (k : Nat) (s t : State), s.Inv → s.HostSparesBuffer → runState k s = some t →
    (∀ j u, j < k → runState j s = some u → u.sbusy = true) →
    ∃ (j : Nat) (u : State), runState j { s with inputs := [] } = some u ∧ t.SameTransfer u ∧
      j + s.inputs.length = k + t.inputs.length

/-- Round trip: with the reference slave at the address SLAVE holds, a completed block write of `C` bytes puts the
buffer's bytes in the cells, and a block read of the same cells into any buffer gives the same bytes
(41_block_transfer R178; 20_memory R76 to R79). -/
def Obligations.RoundTrip : Prop :=
  ∀ (s s₁ : State) (r : RefSlave) (buf' : Word),
    s.Inv → s.inputs = [] → s.device = .reference r → r.devAddr = s.slave → s.sbusy = false →
    exec .xferW s = .next s₁ → s₁.sbusy = true → buf'.toNat + s.count.toNat ≤ 65536 →
    ∃ (s₂ : State) (r₂ : RefSlave),
      runState (9 * s.count.toNat) s₁ = some s₂ ∧ s₂.done = true ∧ s₂.sbusy = false ∧ s₂.device = .reference r₂ ∧
      (∀ k, k < s.count.toNat → r₂.cells.read (s.addr.toNat + k) = s.mem.read (s.bufptr.toNat + k)) ∧
      ∃ s₃ s₄ : State, exec .xferR { s₂ with addr := s.addr, bufptr := buf' } = .next s₃ ∧
        runState (12 * s.count.toNat) s₃ = some s₄ ∧ s₄.done = true ∧ s₄.sbusy = false ∧
        ∀ k, k < s.count.toNat → s₄.mem.read (buf'.toNat + k) = s.mem.read (s.bufptr.toNat + k)

/-- Idempotence of read: with the reference slave at the address SLAVE holds, two block reads of the same cells, the
second into any buffer, give identical bytes (41_block_transfer R181). -/
def Obligations.ReadsAreIdempotent : Prop :=
  ∀ (s s₁ : State) (r : RefSlave) (buf' : Word),
    s.Inv → s.inputs = [] → s.device = .reference r → r.devAddr = s.slave → s.sbusy = false →
    exec .xferR s = .next s₁ → s₁.sbusy = true → buf'.toNat + s.count.toNat ≤ 65536 →
    ∃ s₂ s₃ s₄ : State,
      runState (12 * s.count.toNat) s₁ = some s₂ ∧ s₂.done = true ∧ s₂.sbusy = false ∧
      exec .xferR { s₂ with addr := s.addr, bufptr := buf' } = .next s₃ ∧
      runState (12 * s.count.toNat) s₃ = some s₄ ∧ s₄.done = true ∧ s₄.sbusy = false ∧
      ∀ k, k < s.count.toNat → s₄.mem.read (buf'.toNat + k) = s₂.mem.read (s.bufptr.toNat + k)
end

