-- ==== Sys2Proof/Laws/State.lean ====
section
/-! SUPPORT. What each named operation of Machine/Ops.lean does to each field of the state: one lemma per field per
operation, so that no later proof unfolds a record update. -/

namespace Sys2Proof.Machine

variable (s : State)

/-! `emit` (00_scope R7) -/

@[simp] theorem State.emit_en (e : BusEvent) : (s.emit e).en = s.en := rfl
@[simp] theorem State.emit_byteIe (e : BusEvent) : (s.emit e).byteIe = s.byteIe := rfl
@[simp] theorem State.emit_doneIe (e : BusEvent) : (s.emit e).doneIe = s.doneIe := rfl
@[simp] theorem State.emit_errIe (e : BusEvent) : (s.emit e).errIe = s.errIe := rfl
@[simp] theorem State.emit_bstate (e : BusEvent) : (s.emit e).bstate = s.bstate := rfl
@[simp] theorem State.emit_held (e : BusEvent) : (s.emit e).held = s.held := rfl
@[simp] theorem State.emit_rxmode (e : BusEvent) : (s.emit e).rxmode = s.rxmode := rfl
@[simp] theorem State.emit_ready (e : BusEvent) : (s.emit e).ready = s.ready := rfl
@[simp] theorem State.emit_sbusy (e : BusEvent) : (s.emit e).sbusy = s.sbusy := rfl
@[simp] theorem State.emit_byte (e : BusEvent) : (s.emit e).byte = s.byte := rfl
@[simp] theorem State.emit_done (e : BusEvent) : (s.emit e).done = s.done := rfl
@[simp] theorem State.emit_err (e : BusEvent) : (s.emit e).err = s.err := rfl
@[simp] theorem State.emit_errcode (e : BusEvent) : (s.emit e).errcode = s.errcode := rfl
@[simp] theorem State.emit_ceArmed (e : BusEvent) : (s.emit e).ceArmed = s.ceArmed := rfl
@[simp] theorem State.emit_mrecv (e : BusEvent) : (s.emit e).mrecv = s.mrecv := rfl
@[simp] theorem State.emit_sdir (e : BusEvent) : (s.emit e).sdir = s.sdir := rfl
@[simp] theorem State.emit_addr (e : BusEvent) : (s.emit e).addr = s.addr := rfl
@[simp] theorem State.emit_count (e : BusEvent) : (s.emit e).count = s.count := rfl
@[simp] theorem State.emit_completed (e : BusEvent) : (s.emit e).completed = s.completed := rfl
@[simp] theorem State.emit_bufptr (e : BusEvent) : (s.emit e).bufptr = s.bufptr := rfl
@[simp] theorem State.emit_txdata (e : BusEvent) : (s.emit e).txdata = s.txdata := rfl
@[simp] theorem State.emit_rxdata (e : BusEvent) : (s.emit e).rxdata = s.rxdata := rfl
@[simp] theorem State.emit_slave (e : BusEvent) : (s.emit e).slave = s.slave := rfl
@[simp] theorem State.emit_sstep (e : BusEvent) : (s.emit e).sstep = s.sstep := rfl
@[simp] theorem State.emit_shift (e : BusEvent) : (s.emit e).shift = s.shift := rfl
@[simp] theorem State.emit_rxack (e : BusEvent) : (s.emit e).rxack = s.rxack := rfl
@[simp] theorem State.emit_mem (e : BusEvent) : (s.emit e).mem = s.mem := rfl
@[simp] theorem State.emit_history (e : BusEvent) : (s.emit e).history = s.history ++ [e] := rfl
@[simp] theorem State.emit_device (e : BusEvent) : (s.emit e).device = s.device.onEvent e := rfl
@[simp] theorem State.emit_hostData (e : BusEvent) : (s.emit e).hostData = s.hostData := rfl
@[simp] theorem State.emit_inputs (e : BusEvent) : (s.emit e).inputs = s.inputs := rfl

/-! `raise` (60_exceptions R211) -/

@[simp] theorem State.raise_en (e : ErrCode) : (s.raise e).en = s.en := rfl
@[simp] theorem State.raise_byteIe (e : ErrCode) : (s.raise e).byteIe = s.byteIe := rfl
@[simp] theorem State.raise_doneIe (e : ErrCode) : (s.raise e).doneIe = s.doneIe := rfl
@[simp] theorem State.raise_errIe (e : ErrCode) : (s.raise e).errIe = s.errIe := rfl
@[simp] theorem State.raise_bstate (e : ErrCode) : (s.raise e).bstate = s.bstate := rfl
@[simp] theorem State.raise_held (e : ErrCode) : (s.raise e).held = s.held := rfl
@[simp] theorem State.raise_rxmode (e : ErrCode) : (s.raise e).rxmode = s.rxmode := rfl
@[simp] theorem State.raise_ready (e : ErrCode) : (s.raise e).ready = s.ready := rfl
@[simp] theorem State.raise_sbusy (e : ErrCode) : (s.raise e).sbusy = s.sbusy := rfl
@[simp] theorem State.raise_byte (e : ErrCode) : (s.raise e).byte = s.byte := rfl
@[simp] theorem State.raise_done (e : ErrCode) : (s.raise e).done = s.done := rfl
@[simp] theorem State.raise_err (e : ErrCode) : (s.raise e).err = true := rfl
@[simp] theorem State.raise_errcode (e : ErrCode) : (s.raise e).errcode = e := rfl
@[simp] theorem State.raise_ceArmed (e : ErrCode) : (s.raise e).ceArmed = s.ceArmed := rfl
@[simp] theorem State.raise_mrecv (e : ErrCode) : (s.raise e).mrecv = s.mrecv := rfl
@[simp] theorem State.raise_sdir (e : ErrCode) : (s.raise e).sdir = s.sdir := rfl
@[simp] theorem State.raise_addr (e : ErrCode) : (s.raise e).addr = s.addr := rfl
@[simp] theorem State.raise_count (e : ErrCode) : (s.raise e).count = s.count := rfl
@[simp] theorem State.raise_completed (e : ErrCode) : (s.raise e).completed = s.completed := rfl
@[simp] theorem State.raise_bufptr (e : ErrCode) : (s.raise e).bufptr = s.bufptr := rfl
@[simp] theorem State.raise_txdata (e : ErrCode) : (s.raise e).txdata = s.txdata := rfl
@[simp] theorem State.raise_rxdata (e : ErrCode) : (s.raise e).rxdata = s.rxdata := rfl
@[simp] theorem State.raise_slave (e : ErrCode) : (s.raise e).slave = s.slave := rfl
@[simp] theorem State.raise_sstep (e : ErrCode) : (s.raise e).sstep = s.sstep := rfl
@[simp] theorem State.raise_shift (e : ErrCode) : (s.raise e).shift = s.shift := rfl
@[simp] theorem State.raise_rxack (e : ErrCode) : (s.raise e).rxack = s.rxack := rfl
@[simp] theorem State.raise_mem (e : ErrCode) : (s.raise e).mem = s.mem := rfl
@[simp] theorem State.raise_history (e : ErrCode) : (s.raise e).history = s.history := rfl
@[simp] theorem State.raise_device (e : ErrCode) : (s.raise e).device = s.device := rfl
@[simp] theorem State.raise_hostData (e : ErrCode) : (s.raise e).hostData = s.hostData := rfl
@[simp] theorem State.raise_inputs (e : ErrCode) : (s.raise e).inputs = s.inputs := rfl

/-! `issue_start` (40_bus_primitive R113) -/

@[simp] theorem State.issueStart_en (rw : Bool) : (s.issueStart rw).en = s.en := rfl
@[simp] theorem State.issueStart_byteIe (rw : Bool) : (s.issueStart rw).byteIe = s.byteIe := rfl
@[simp] theorem State.issueStart_doneIe (rw : Bool) : (s.issueStart rw).doneIe = s.doneIe := rfl
@[simp] theorem State.issueStart_errIe (rw : Bool) : (s.issueStart rw).errIe = s.errIe := rfl
@[simp] theorem State.issueStart_bstate (rw : Bool) : (s.issueStart rw).bstate = .startPending := rfl
@[simp] theorem State.issueStart_held (rw : Bool) : (s.issueStart rw).held = true := rfl
@[simp] theorem State.issueStart_rxmode (rw : Bool) : (s.issueStart rw).rxmode = rw := rfl
@[simp] theorem State.issueStart_ready (rw : Bool) : (s.issueStart rw).ready = false := rfl
@[simp] theorem State.issueStart_sbusy (rw : Bool) : (s.issueStart rw).sbusy = s.sbusy := rfl
@[simp] theorem State.issueStart_byte (rw : Bool) : (s.issueStart rw).byte = s.byte := rfl
@[simp] theorem State.issueStart_done (rw : Bool) : (s.issueStart rw).done = s.done := rfl
@[simp] theorem State.issueStart_err (rw : Bool) : (s.issueStart rw).err = s.err := rfl
@[simp] theorem State.issueStart_errcode (rw : Bool) : (s.issueStart rw).errcode = s.errcode := rfl
@[simp] theorem State.issueStart_ceArmed (rw : Bool) : (s.issueStart rw).ceArmed = s.ceArmed := rfl
@[simp] theorem State.issueStart_mrecv (rw : Bool) : (s.issueStart rw).mrecv = rw := rfl
@[simp] theorem State.issueStart_sdir (rw : Bool) : (s.issueStart rw).sdir = s.sdir := rfl
@[simp] theorem State.issueStart_addr (rw : Bool) : (s.issueStart rw).addr = s.addr := rfl
@[simp] theorem State.issueStart_count (rw : Bool) : (s.issueStart rw).count = s.count := rfl
@[simp] theorem State.issueStart_completed (rw : Bool) : (s.issueStart rw).completed = s.completed := rfl
@[simp] theorem State.issueStart_bufptr (rw : Bool) : (s.issueStart rw).bufptr = s.bufptr := rfl
@[simp] theorem State.issueStart_txdata (rw : Bool) : (s.issueStart rw).txdata = s.txdata := rfl
@[simp] theorem State.issueStart_rxdata (rw : Bool) : (s.issueStart rw).rxdata = s.rxdata := rfl
@[simp] theorem State.issueStart_slave (rw : Bool) : (s.issueStart rw).slave = s.slave := rfl
@[simp] theorem State.issueStart_sstep (rw : Bool) : (s.issueStart rw).sstep = s.sstep := rfl
@[simp] theorem State.issueStart_shift (rw : Bool) : (s.issueStart rw).shift = controlByte s.slave rw := rfl
@[simp] theorem State.issueStart_rxack (rw : Bool) : (s.issueStart rw).rxack = s.rxack := rfl
@[simp] theorem State.issueStart_mem (rw : Bool) : (s.issueStart rw).mem = s.mem := rfl
@[simp] theorem State.issueStart_history (rw : Bool) : (s.issueStart rw).history = s.history ++ [if s.held = false then .start else .repStart] := rfl
@[simp] theorem State.issueStart_device (rw : Bool) : (s.issueStart rw).device = s.device.onEvent (if s.held = false then .start else .repStart) := rfl
@[simp] theorem State.issueStart_hostData (rw : Bool) : (s.issueStart rw).hostData = s.hostData := rfl
@[simp] theorem State.issueStart_inputs (rw : Bool) : (s.issueStart rw).inputs = s.inputs := rfl

/-! `issue_tx` (40_bus_primitive R113) -/

@[simp] theorem State.issueTx_en (b : Byte) (st : BusState) : (s.issueTx b st).en = s.en := rfl
@[simp] theorem State.issueTx_byteIe (b : Byte) (st : BusState) : (s.issueTx b st).byteIe = s.byteIe := rfl
@[simp] theorem State.issueTx_doneIe (b : Byte) (st : BusState) : (s.issueTx b st).doneIe = s.doneIe := rfl
@[simp] theorem State.issueTx_errIe (b : Byte) (st : BusState) : (s.issueTx b st).errIe = s.errIe := rfl
@[simp] theorem State.issueTx_bstate (b : Byte) (st : BusState) : (s.issueTx b st).bstate = st := rfl
@[simp] theorem State.issueTx_held (b : Byte) (st : BusState) : (s.issueTx b st).held = s.held := rfl
@[simp] theorem State.issueTx_rxmode (b : Byte) (st : BusState) : (s.issueTx b st).rxmode = s.rxmode := rfl
@[simp] theorem State.issueTx_ready (b : Byte) (st : BusState) : (s.issueTx b st).ready = false := rfl
@[simp] theorem State.issueTx_sbusy (b : Byte) (st : BusState) : (s.issueTx b st).sbusy = s.sbusy := rfl
@[simp] theorem State.issueTx_byte (b : Byte) (st : BusState) : (s.issueTx b st).byte = s.byte := rfl
@[simp] theorem State.issueTx_done (b : Byte) (st : BusState) : (s.issueTx b st).done = s.done := rfl
@[simp] theorem State.issueTx_err (b : Byte) (st : BusState) : (s.issueTx b st).err = s.err := rfl
@[simp] theorem State.issueTx_errcode (b : Byte) (st : BusState) : (s.issueTx b st).errcode = s.errcode := rfl
@[simp] theorem State.issueTx_ceArmed (b : Byte) (st : BusState) : (s.issueTx b st).ceArmed = s.ceArmed := rfl
@[simp] theorem State.issueTx_mrecv (b : Byte) (st : BusState) : (s.issueTx b st).mrecv = s.mrecv := rfl
@[simp] theorem State.issueTx_sdir (b : Byte) (st : BusState) : (s.issueTx b st).sdir = s.sdir := rfl
@[simp] theorem State.issueTx_addr (b : Byte) (st : BusState) : (s.issueTx b st).addr = s.addr := rfl
@[simp] theorem State.issueTx_count (b : Byte) (st : BusState) : (s.issueTx b st).count = s.count := rfl
@[simp] theorem State.issueTx_completed (b : Byte) (st : BusState) : (s.issueTx b st).completed = s.completed := rfl
@[simp] theorem State.issueTx_bufptr (b : Byte) (st : BusState) : (s.issueTx b st).bufptr = s.bufptr := rfl
@[simp] theorem State.issueTx_txdata (b : Byte) (st : BusState) : (s.issueTx b st).txdata = s.txdata := rfl
@[simp] theorem State.issueTx_rxdata (b : Byte) (st : BusState) : (s.issueTx b st).rxdata = s.rxdata := rfl
@[simp] theorem State.issueTx_slave (b : Byte) (st : BusState) : (s.issueTx b st).slave = s.slave := rfl
@[simp] theorem State.issueTx_sstep (b : Byte) (st : BusState) : (s.issueTx b st).sstep = s.sstep := rfl
@[simp] theorem State.issueTx_shift (b : Byte) (st : BusState) : (s.issueTx b st).shift = b := rfl
@[simp] theorem State.issueTx_rxack (b : Byte) (st : BusState) : (s.issueTx b st).rxack = s.rxack := rfl
@[simp] theorem State.issueTx_mem (b : Byte) (st : BusState) : (s.issueTx b st).mem = s.mem := rfl
@[simp] theorem State.issueTx_history (b : Byte) (st : BusState) : (s.issueTx b st).history = s.history := rfl
@[simp] theorem State.issueTx_device (b : Byte) (st : BusState) : (s.issueTx b st).device = s.device := rfl
@[simp] theorem State.issueTx_hostData (b : Byte) (st : BusState) : (s.issueTx b st).hostData = s.hostData := rfl
@[simp] theorem State.issueTx_inputs (b : Byte) (st : BusState) : (s.issueTx b st).inputs = s.inputs := rfl

/-! `issue_rx` (40_bus_primitive R113) -/

@[simp] theorem State.issueRx_en (m : Bool) : (s.issueRx m).en = s.en := rfl
@[simp] theorem State.issueRx_byteIe (m : Bool) : (s.issueRx m).byteIe = s.byteIe := rfl
@[simp] theorem State.issueRx_doneIe (m : Bool) : (s.issueRx m).doneIe = s.doneIe := rfl
@[simp] theorem State.issueRx_errIe (m : Bool) : (s.issueRx m).errIe = s.errIe := rfl
@[simp] theorem State.issueRx_bstate (m : Bool) : (s.issueRx m).bstate = .receivingByte := rfl
@[simp] theorem State.issueRx_held (m : Bool) : (s.issueRx m).held = s.held := rfl
@[simp] theorem State.issueRx_rxmode (m : Bool) : (s.issueRx m).rxmode = s.rxmode := rfl
@[simp] theorem State.issueRx_ready (m : Bool) : (s.issueRx m).ready = false := rfl
@[simp] theorem State.issueRx_sbusy (m : Bool) : (s.issueRx m).sbusy = s.sbusy := rfl
@[simp] theorem State.issueRx_byte (m : Bool) : (s.issueRx m).byte = s.byte := rfl
@[simp] theorem State.issueRx_done (m : Bool) : (s.issueRx m).done = s.done := rfl
@[simp] theorem State.issueRx_err (m : Bool) : (s.issueRx m).err = s.err := rfl
@[simp] theorem State.issueRx_errcode (m : Bool) : (s.issueRx m).errcode = s.errcode := rfl
@[simp] theorem State.issueRx_ceArmed (m : Bool) : (s.issueRx m).ceArmed = s.ceArmed := rfl
@[simp] theorem State.issueRx_mrecv (m : Bool) : (s.issueRx m).mrecv = s.mrecv := rfl
@[simp] theorem State.issueRx_sdir (m : Bool) : (s.issueRx m).sdir = s.sdir := rfl
@[simp] theorem State.issueRx_addr (m : Bool) : (s.issueRx m).addr = s.addr := rfl
@[simp] theorem State.issueRx_count (m : Bool) : (s.issueRx m).count = s.count := rfl
@[simp] theorem State.issueRx_completed (m : Bool) : (s.issueRx m).completed = s.completed := rfl
@[simp] theorem State.issueRx_bufptr (m : Bool) : (s.issueRx m).bufptr = s.bufptr := rfl
@[simp] theorem State.issueRx_txdata (m : Bool) : (s.issueRx m).txdata = s.txdata := rfl
@[simp] theorem State.issueRx_rxdata (m : Bool) : (s.issueRx m).rxdata = s.rxdata := rfl
@[simp] theorem State.issueRx_slave (m : Bool) : (s.issueRx m).slave = s.slave := rfl
@[simp] theorem State.issueRx_sstep (m : Bool) : (s.issueRx m).sstep = s.sstep := rfl
@[simp] theorem State.issueRx_shift (m : Bool) : (s.issueRx m).shift = s.shift := rfl
@[simp] theorem State.issueRx_rxack (m : Bool) : (s.issueRx m).rxack = m := rfl
@[simp] theorem State.issueRx_mem (m : Bool) : (s.issueRx m).mem = s.mem := rfl
@[simp] theorem State.issueRx_history (m : Bool) : (s.issueRx m).history = s.history := rfl
@[simp] theorem State.issueRx_device (m : Bool) : (s.issueRx m).device = s.device := rfl
@[simp] theorem State.issueRx_hostData (m : Bool) : (s.issueRx m).hostData = s.hostData := rfl
@[simp] theorem State.issueRx_inputs (m : Bool) : (s.issueRx m).inputs = s.inputs := rfl

/-! `issue_stop` (40_bus_primitive R113) -/

@[simp] theorem State.issueStop_en : (s.issueStop).en = s.en := rfl
@[simp] theorem State.issueStop_byteIe : (s.issueStop).byteIe = s.byteIe := rfl
@[simp] theorem State.issueStop_doneIe : (s.issueStop).doneIe = s.doneIe := rfl
@[simp] theorem State.issueStop_errIe : (s.issueStop).errIe = s.errIe := rfl
@[simp] theorem State.issueStop_bstate : (s.issueStop).bstate = .stopPending := rfl
@[simp] theorem State.issueStop_held : (s.issueStop).held = s.held := rfl
@[simp] theorem State.issueStop_rxmode : (s.issueStop).rxmode = s.rxmode := rfl
@[simp] theorem State.issueStop_ready : (s.issueStop).ready = false := rfl
@[simp] theorem State.issueStop_sbusy : (s.issueStop).sbusy = s.sbusy := rfl
@[simp] theorem State.issueStop_byte : (s.issueStop).byte = s.byte := rfl
@[simp] theorem State.issueStop_done : (s.issueStop).done = s.done := rfl
@[simp] theorem State.issueStop_err : (s.issueStop).err = s.err := rfl
@[simp] theorem State.issueStop_errcode : (s.issueStop).errcode = s.errcode := rfl
@[simp] theorem State.issueStop_ceArmed : (s.issueStop).ceArmed = s.ceArmed := rfl
@[simp] theorem State.issueStop_mrecv : (s.issueStop).mrecv = s.mrecv := rfl
@[simp] theorem State.issueStop_sdir : (s.issueStop).sdir = s.sdir := rfl
@[simp] theorem State.issueStop_addr : (s.issueStop).addr = s.addr := rfl
@[simp] theorem State.issueStop_count : (s.issueStop).count = s.count := rfl
@[simp] theorem State.issueStop_completed : (s.issueStop).completed = s.completed := rfl
@[simp] theorem State.issueStop_bufptr : (s.issueStop).bufptr = s.bufptr := rfl
@[simp] theorem State.issueStop_txdata : (s.issueStop).txdata = s.txdata := rfl
@[simp] theorem State.issueStop_rxdata : (s.issueStop).rxdata = s.rxdata := rfl
@[simp] theorem State.issueStop_slave : (s.issueStop).slave = s.slave := rfl
@[simp] theorem State.issueStop_sstep : (s.issueStop).sstep = s.sstep := rfl
@[simp] theorem State.issueStop_shift : (s.issueStop).shift = s.shift := rfl
@[simp] theorem State.issueStop_rxack : (s.issueStop).rxack = s.rxack := rfl
@[simp] theorem State.issueStop_mem : (s.issueStop).mem = s.mem := rfl
@[simp] theorem State.issueStop_history : (s.issueStop).history = s.history := rfl
@[simp] theorem State.issueStop_device : (s.issueStop).device = s.device := rfl
@[simp] theorem State.issueStop_hostData : (s.issueStop).hostData = s.hostData := rfl
@[simp] theorem State.issueStop_inputs : (s.issueStop).inputs = s.inputs := rfl

/-! `fail()` (40_bus_primitive R126) -/

@[simp] theorem State.fail_en : (s.fail).en = s.en := rfl
@[simp] theorem State.fail_byteIe : (s.fail).byteIe = s.byteIe := rfl
@[simp] theorem State.fail_doneIe : (s.fail).doneIe = s.doneIe := rfl
@[simp] theorem State.fail_errIe : (s.fail).errIe = s.errIe := rfl
@[simp] theorem State.fail_bstate : (s.fail).bstate = .stopPending := rfl
@[simp] theorem State.fail_held : (s.fail).held = s.held := rfl
@[simp] theorem State.fail_rxmode : (s.fail).rxmode = s.rxmode := rfl
@[simp] theorem State.fail_ready : (s.fail).ready = false := rfl
@[simp] theorem State.fail_sbusy : (s.fail).sbusy = s.sbusy := rfl
@[simp] theorem State.fail_byte : (s.fail).byte = s.byte := rfl
@[simp] theorem State.fail_done : (s.fail).done = s.done := rfl
@[simp] theorem State.fail_err : (s.fail).err = true := rfl
@[simp] theorem State.fail_errcode : (s.fail).errcode = .busTimeout := rfl
@[simp] theorem State.fail_ceArmed : (s.fail).ceArmed = false := rfl
@[simp] theorem State.fail_mrecv : (s.fail).mrecv = s.mrecv := rfl
@[simp] theorem State.fail_sdir : (s.fail).sdir = s.sdir := rfl
@[simp] theorem State.fail_addr : (s.fail).addr = s.addr := rfl
@[simp] theorem State.fail_count : (s.fail).count = s.count := rfl
@[simp] theorem State.fail_completed : (s.fail).completed = s.completed := rfl
@[simp] theorem State.fail_bufptr : (s.fail).bufptr = s.bufptr := rfl
@[simp] theorem State.fail_txdata : (s.fail).txdata = s.txdata := rfl
@[simp] theorem State.fail_rxdata : (s.fail).rxdata = s.rxdata := rfl
@[simp] theorem State.fail_slave : (s.fail).slave = s.slave := rfl
@[simp] theorem State.fail_sstep : (s.fail).sstep = if s.sbusy = true then .ssAbort else s.sstep := rfl
@[simp] theorem State.fail_shift : (s.fail).shift = s.shift := rfl
@[simp] theorem State.fail_rxack : (s.fail).rxack = s.rxack := rfl
@[simp] theorem State.fail_mem : (s.fail).mem = s.mem := rfl
@[simp] theorem State.fail_history : (s.fail).history = s.history := rfl
@[simp] theorem State.fail_device : (s.fail).device = s.device := rfl
@[simp] theorem State.fail_hostData : (s.fail).hostData = s.hostData := rfl
@[simp] theorem State.fail_inputs : (s.fail).inputs = s.inputs := rfl

end Sys2Proof.Machine
end

