-- ==== Sys2Proof/Laws/Commands.lean ====
section
/-! SUPPORT. What the acceptance checks answer and everything a command can do (30_encoding R97, R98): one lemma per
shared operation, and one for all commands. -/

namespace Sys2Proof.Machine

variable {s t : State}

/-- A command that is not performed raises its error and does nothing else (60_exceptions R220). -/
theorem performUnless_cases {e : Option ErrCode} {act : State → State} (h : s.performUnless e act = .next t) :
    (∃ c, e = some c ∧ t = s.raise c) ∨ (e = none ∧ t = act s) := by
  cases e with
  | none => exact .inr ⟨rfl, by simpa [State.performUnless] using h.symm⟩
  | some c => exact .inl ⟨c, rfl, by simpa [State.performUnless] using h.symm⟩

theorem performUnless_none {e : Option ErrCode} {act : State → State} (h : e = none) :
    s.performUnless e act = .next (act s) := by
  subst h; rfl

theorem performUnless_some {e : Option ErrCode} {act : State → State} {c : ErrCode} (h : e = some c) :
    s.performUnless e act = .next (s.raise c) := by
  subst h; rfl

/-- Checks 3 to 5 pass exactly when the block is enabled, no transfer is active and no phase is in flight. -/
theorem busyError_eq_none_iff : s.busyError = none ↔ s.en = true ∧ s.sbusy = false ∧ s.ready = true := by
  unfold State.busyError
  cases s.en <;> cases s.sbusy <;> cases s.ready <;> simp

/-- Checks 3 to 5 raise RequestRejected only (60_exceptions R213). -/
theorem busyError_eq_some {c : ErrCode} (h : s.busyError = some c) : c = .requestRejected := by
  revert h
  unfold State.busyError
  cases s.en <;> cases s.sbusy <;> cases s.ready <;> simp [eq_comm]

theorem primitiveError_eq_none_iff {legal : Bool} :
    s.primitiveError legal = none ↔ s.en = true ∧ s.sbusy = false ∧ s.ready = true ∧ legal = true := by
  rw [← and_assoc, ← and_assoc, and_assoc (a := s.en = true), ← busyError_eq_none_iff]
  unfold State.primitiveError
  cases s.busyError <;> cases legal <;> simp

theorem primitiveError_eq_some {legal : Bool} {c : ErrCode} (h : s.primitiveError legal = some c) :
    c = .requestRejected ∨ c = .illegalCommand := by
  unfold State.primitiveError at h
  split at h
  · rename_i e he
    exact .inl (by rw [← Option.some.inj h]; exact busyError_eq_some he)
  · cases legal
    · exact .inr (Option.some.inj h).symm
    · cases h

theorem transferError_eq_none_iff :
    s.transferError = none ↔
      s.en = true ∧ s.sbusy = false ∧ s.ready = true ∧ s.held = false ∧ s.requestOutOfRange = false := by
  rw [← and_assoc, ← and_assoc, and_assoc (a := s.en = true), ← busyError_eq_none_iff]
  unfold State.transferError
  cases s.busyError <;> cases s.held <;> cases s.requestOutOfRange <;> simp

theorem transferError_eq_some {c : ErrCode} (h : s.transferError = some c) :
    c = .requestRejected ∨ c = .outOfRange := by
  unfold State.transferError at h
  split at h
  · rename_i e he
    exact .inl (by rw [← Option.some.inj h]; exact busyError_eq_some he)
  · revert h
    cases s.held <;> cases s.requestOutOfRange <;> simp [eq_comm] <;> intro h <;> simp [h]

/-- Check 8 passes exactly when the request fits the EEPROM and system memory (60_exceptions R214). -/
theorem requestOutOfRange_eq_false_iff :
    s.requestOutOfRange = false ↔
      s.addr.toNat + s.count.toNat ≤ 256 ∧ s.bufptr.toNat + s.count.toNat ≤ 65536 := by
  simp only [State.requestOutOfRange, Bool.or_eq_false_iff, decide_eq_false_iff_not, Nat.not_lt, gt_iff_lt]

theorem requestOutOfRange_eq_true_iff :
    s.requestOutOfRange = true ↔
      s.addr.toNat + s.count.toNat > 256 ∨ s.bufptr.toNat + s.count.toNat > 65536 := by
  simp only [State.requestOutOfRange, Bool.or_eq_true, decide_eq_true_eq]

theorem legalStart_eq_true_iff : s.legalStart = true ↔ ¬(s.rxmode = true ∧ s.mrecv = true) := by
  unfold State.legalStart State.owesByte
  cases s.rxmode <;> cases s.mrecv <;> simp

theorem legalSend_eq_true_iff : s.legalSend = true ↔ s.held = true ∧ s.rxmode = false := by
  simp [State.legalSend]

theorem legalRecv_eq_true_iff : s.legalRecv = true ↔ s.held = true ∧ s.rxmode = true ∧ s.mrecv = true := by
  simp [State.legalRecv, State.owesByte]

theorem legalStop_eq_true_iff :
    s.legalStop = true ↔ s.held = true ∧ ¬(s.rxmode = true ∧ s.mrecv = true) := by
  unfold State.legalStop State.owesByte
  cases s.held <;> cases s.rxmode <;> cases s.mrecv <;> simp

/-- Everything a command can do: nothing (NOP), the error latch of its first failing check, or its rule's effect
after every check has passed. -/
theorem exec_cases {i : Instr} (h : exec i s = .next t) :
    (i = .nop ∧ t = s) ∨
    (i ≠ .nop ∧ ∃ c, c ≠ .none ∧ c ≠ .busTimeout ∧ t = s.raise c) ∨
    (s.en = true ∧ s.sbusy = false ∧ s.ready = true ∧
      ((i = .startW ∧ s.legalStart = true ∧ t = s.issueStart false) ∨
       (i = .startR ∧ s.legalStart = true ∧ t = s.issueStart true) ∨
       (i = .sendAddr ∧ s.legalSend = true ∧ t = s.issueTx s.addr .addressing) ∨
       (i = .sendData ∧ s.legalSend = true ∧ t = s.issueTx s.txdata .transmittingByte) ∨
       (i = .recvAck ∧ s.legalRecv = true ∧ t = s.issueRx true) ∨
       (i = .recvNack ∧ s.legalRecv = true ∧ t = s.issueRx false) ∨
       (i = .stop ∧ s.legalStop = true ∧ t = s.issueStop) ∨
       (i = .xferW ∧ s.held = false ∧ s.requestOutOfRange = false ∧ t = s.accept false) ∨
       (i = .xferR ∧ s.held = false ∧ s.requestOutOfRange = false ∧ t = s.accept true))) := by
  have primitive : ∀ (legal : Bool) (act : State → State), s.performUnless (s.primitiveError legal) act = .next t →
      (∃ c, c ≠ .none ∧ c ≠ .busTimeout ∧ t = s.raise c) ∨
      ((s.en = true ∧ s.sbusy = false ∧ s.ready = true) ∧ legal = true ∧ t = act s) := by
    intro legal act hp
    rcases performUnless_cases hp with ⟨c, hc, ht⟩ | ⟨hn, ht⟩
    · rcases primitiveError_eq_some hc with rfl | rfl <;> exact .inl ⟨_, by decide, by decide, ht⟩
    · obtain ⟨h1, h2, h3, h4⟩ := primitiveError_eq_none_iff.mp hn
      exact .inr ⟨⟨h1, h2, h3⟩, h4, ht⟩
  have transfer : ∀ act : State → State, s.performUnless s.transferError act = .next t →
      (∃ c, c ≠ .none ∧ c ≠ .busTimeout ∧ t = s.raise c) ∨
      ((s.en = true ∧ s.sbusy = false ∧ s.ready = true) ∧ s.held = false ∧ s.requestOutOfRange = false ∧
        t = act s) := by
    intro act hp
    rcases performUnless_cases hp with ⟨c, hc, ht⟩ | ⟨hn, ht⟩
    · rcases transferError_eq_some hc with rfl | rfl <;> exact .inl ⟨_, by decide, by decide, ht⟩
    · obtain ⟨h1, h2, h3, h4, h5⟩ := transferError_eq_none_iff.mp hn
      exact .inr ⟨⟨h1, h2, h3⟩, h4, h5, ht⟩
  cases i with
  | nop => exact .inl ⟨rfl, by simpa [exec, execNop] using h.symm⟩
  | startW =>
    rcases primitive s.legalStart (fun s => s.issueStart false) h with ⟨c, h1, h2, ht⟩ | ⟨⟨h1, h2, h3⟩, hl, ht⟩
    · exact .inr (.inl ⟨by decide, c, h1, h2, ht⟩)
    · simp [h1, h2, h3, hl, ht]
  | startR =>
    rcases primitive s.legalStart (fun s => s.issueStart true) h with ⟨c, h1, h2, ht⟩ | ⟨⟨h1, h2, h3⟩, hl, ht⟩
    · exact .inr (.inl ⟨by decide, c, h1, h2, ht⟩)
    · simp [h1, h2, h3, hl, ht]
  | sendAddr =>
    rcases primitive s.legalSend (fun s => s.issueTx s.addr .addressing) h with ⟨c, h1, h2, ht⟩ | ⟨⟨h1, h2, h3⟩, hl, ht⟩
    · exact .inr (.inl ⟨by decide, c, h1, h2, ht⟩)
    · simp [h1, h2, h3, hl, ht]
  | sendData =>
    rcases primitive s.legalSend (fun s => s.issueTx s.txdata .transmittingByte) h with ⟨c, h1, h2, ht⟩ | ⟨⟨h1, h2, h3⟩, hl, ht⟩
    · exact .inr (.inl ⟨by decide, c, h1, h2, ht⟩)
    · simp [h1, h2, h3, hl, ht]
  | recvAck =>
    rcases primitive s.legalRecv (fun s => s.issueRx true) h with ⟨c, h1, h2, ht⟩ | ⟨⟨h1, h2, h3⟩, hl, ht⟩
    · exact .inr (.inl ⟨by decide, c, h1, h2, ht⟩)
    · simp [h1, h2, h3, hl, ht]
  | recvNack =>
    rcases primitive s.legalRecv (fun s => s.issueRx false) h with ⟨c, h1, h2, ht⟩ | ⟨⟨h1, h2, h3⟩, hl, ht⟩
    · exact .inr (.inl ⟨by decide, c, h1, h2, ht⟩)
    · simp [h1, h2, h3, hl, ht]
  | stop =>
    rcases primitive s.legalStop (fun s => s.issueStop) h with ⟨c, h1, h2, ht⟩ | ⟨⟨h1, h2, h3⟩, hl, ht⟩
    · exact .inr (.inl ⟨by decide, c, h1, h2, ht⟩)
    · simp [h1, h2, h3, hl, ht]
  | xferW =>
    rcases transfer (fun s => s.accept false) h with ⟨c, h1, h2, ht⟩ | ⟨⟨h1, h2, h3⟩, hl, hr, ht⟩
    · exact .inr (.inl ⟨by decide, c, h1, h2, ht⟩)
    · simp [h1, h2, h3, hl, hr, ht]
  | xferR =>
    rcases transfer (fun s => s.accept true) h with ⟨c, h1, h2, ht⟩ | ⟨⟨h1, h2, h3⟩, hl, hr, ht⟩
    · exact .inr (.inl ⟨by decide, c, h1, h2, ht⟩)
    · simp [h1, h2, h3, hl, hr, ht]

/-- A written CMD word is a command performed by `exec`, or illegal and only the latch (30_encoding R92, R97). -/
theorem writeCmd_cases {v : Word} (h : writeCmd v s = .next t) :
    (∃ i, decodeWord v = .ok i ∧ exec i s = .next t) ∨
    ((∃ e, decodeWord v = .error e) ∧ t = s.raise .illegalCommand) := by
  unfold writeCmd at h
  split at h
  · rename_i i hi
    exact .inl ⟨i, hi, h⟩
  · rename_i e he
    exact .inr ⟨⟨e, he⟩, by simpa using h.symm⟩

end Sys2Proof.Machine
end

