-- ==== Sys2Proof/Laws/Memory.lean ====
section
/-! SUPPORT. The laws of byte memory: a read after a write, the canonical form kept by every write, and equal reads
of canonical memories being equal data. -/

namespace Sys2Proof.Machine

theorem Memory.read_write_same (m : Memory) (a : Nat) (b : Byte) (lo size : Nat) (h : m.wfFrom size lo = true) :
    (m.write a b).read a = b := by
  induction m generalizing lo with
  | nil => by_cases hb : b = Config.unlistedByte <;> simp [Memory.write, Memory.read, hb]
  | cons c m ih =>
    obtain ⟨k, v⟩ := c
    simp only [Memory.wfFrom, Bool.and_eq_true, decide_eq_true_eq] at h
    obtain ⟨⟨⟨-, -⟩, hv⟩, hm⟩ := h
    have unlisted : ∀ (n : Memory) (l : Nat), n.wfFrom size l = true → a < l → n.read a = Config.unlistedByte := by
      intro n
      induction n with
      | nil => intros; rfl
      | cons d n ihn =>
        intro l hn hl
        simp only [Memory.wfFrom, Bool.and_eq_true, decide_eq_true_eq] at hn
        have hd : d.1 ≠ a := by omega
        simp only [Memory.read, hd, if_false]
        exact ihn _ hn.2 (by omega)
    by_cases h1 : a < k
    · have hk : k ≠ a := by omega
      by_cases hb : b = Config.unlistedByte
      · simp only [Memory.write, h1, hb, if_true, Memory.read, hk, if_false]
        exact unlisted m _ hm (by omega)
      · simp [Memory.write, h1, hb, Memory.read]
    · by_cases h2 : a = k
      · subst h2
        by_cases hb : b = Config.unlistedByte
        · simp only [Memory.write, Nat.lt_irrefl, if_false, if_true, hb]
          exact unlisted m _ hm (by omega)
        · simp [Memory.write, hb, Memory.read]
      · have hk : k ≠ a := by omega
        simp only [Memory.write, h1, h2, if_false, Memory.read, hk]
        exact ih _ hm

theorem Memory.read_write_other (m : Memory) (a c : Nat) (b : Byte) (hne : c ≠ a) (lo size : Nat)
    (h : m.wfFrom size lo = true) : (m.write a b).read c = m.read c := by
  induction m generalizing lo with
  | nil => by_cases hb : b = Config.unlistedByte <;> simp [Memory.write, Memory.read, hb, hne.symm]
  | cons d m ih =>
    obtain ⟨k, v⟩ := d
    simp only [Memory.wfFrom, Bool.and_eq_true, decide_eq_true_eq] at h
    by_cases h1 : a < k
    · by_cases hb : b = Config.unlistedByte <;> simp [Memory.write, h1, hb, Memory.read, hne.symm]
    · by_cases h2 : a = k
      · subst h2
        by_cases hb : b = Config.unlistedByte <;> simp [Memory.write, hb, Memory.read, hne.symm]
      · simp only [Memory.write, h1, h2, if_false, Memory.read]
        rw [ih _ h.2]

theorem Memory.wfFrom_mono (m : Memory) (size lo lo' : Nat) (hlo : lo' ≤ lo) (h : m.wfFrom size lo = true) :
    m.wfFrom size lo' = true := by
  cases m with
  | nil => rfl
  | cons d m =>
    simp only [Memory.wfFrom, Bool.and_eq_true, decide_eq_true_eq] at h ⊢
    exact ⟨⟨⟨by omega, h.1.1.2⟩, h.1.2⟩, h.2⟩

theorem Memory.wfFrom_write (m : Memory) (a : Nat) (b : Byte) (lo size : Nat) (hlo : lo ≤ a) (ha : a < size)
    (h : m.wfFrom size lo = true) : (m.write a b).wfFrom size lo = true := by
  induction m generalizing lo with
  | nil => by_cases hb : b = Config.unlistedByte <;> simp [Memory.write, Memory.wfFrom, hb, hlo, ha]
  | cons d m ih =>
    obtain ⟨k, v⟩ := d
    have h' := h
    simp only [Memory.wfFrom, Bool.and_eq_true, decide_eq_true_eq] at h
    obtain ⟨⟨⟨hk, hks⟩, hv⟩, hm⟩ := h
    by_cases h1 : a < k
    · by_cases hb : b = Config.unlistedByte
      · simpa only [Memory.write, h1, hb, if_true] using h'
      · simp only [Memory.write, h1, hb, if_true, if_false, Memory.wfFrom, Bool.and_eq_true, decide_eq_true_eq]
        exact ⟨⟨⟨hlo, ha⟩, hb⟩, ⟨⟨⟨by omega, hks⟩, hv⟩, hm⟩⟩
    · by_cases h2 : a = k
      · subst h2
        by_cases hb : b = Config.unlistedByte
        · simp only [Memory.write, Nat.lt_irrefl, if_false, if_true, hb]
          exact Memory.wfFrom_mono _ _ _ _ (by omega) hm
        · simp only [Memory.write, Nat.lt_irrefl, if_false, if_true, hb, Memory.wfFrom, Bool.and_eq_true,
            decide_eq_true_eq]
          exact ⟨⟨⟨hk, hks⟩, hb⟩, hm⟩
      · simp only [Memory.write, h1, h2, if_false, Memory.wfFrom, Bool.and_eq_true, decide_eq_true_eq]
        exact ⟨⟨⟨hk, hks⟩, hv⟩, ih _ (by omega) hm⟩

/-- Every write inside the address space keeps the canonical form. -/
theorem Memory.wf_write (m : Memory) (size a : Nat) (b : Byte) (ha : a < size) (h : m.wf size = true) :
    (m.write a b).wf size = true :=
  Memory.wfFrom_write m a b 0 size (Nat.zero_le a) ha h

/-- A read after a write to the same address gives the byte written. -/
theorem Memory.read_write_eq (m : Memory) (size a : Nat) (b : Byte) (h : m.wf size = true) :
    (m.write a b).read a = b :=
  Memory.read_write_same m a b 0 size h

/-- A write leaves every other address alone. -/
theorem Memory.read_write_ne (m : Memory) (size a c : Nat) (b : Byte) (h : m.wf size = true) (hne : c ≠ a) :
    (m.write a b).read c = m.read c :=
  Memory.read_write_other m a c b hne 0 size h

/-- Below its lower bound a canonical memory lists nothing. -/
theorem Memory.read_below (m : Memory) (size lo a : Nat) (h : m.wfFrom size lo = true) (ha : a < lo) :
    m.read a = Config.unlistedByte := by
  induction m generalizing lo with
  | nil => rfl
  | cons d m ih =>
    obtain ⟨k, v⟩ := d
    simp only [Memory.wfFrom, Bool.and_eq_true, decide_eq_true_eq] at h
    have hk : k ≠ a := by omega
    simp only [Memory.read, hk, if_false]
    exact ih _ h.2 (by omega)

/-- Two canonical memories that read alike everywhere are equal data. -/
theorem Memory.ext_of_read (m n : Memory) (size lo : Nat) (hm : m.wfFrom size lo = true)
    (hn : n.wfFrom size lo = true) (h : ∀ a, m.read a = n.read a) : m = n := by
  induction m generalizing n lo with
  | nil =>
    cases n with
    | nil => rfl
    | cons d n =>
      obtain ⟨k, v⟩ := d
      simp only [Memory.wfFrom, Bool.and_eq_true, decide_eq_true_eq] at hn
      have := h k
      simp only [Memory.read, if_true] at this
      exact absurd this.symm hn.1.2
  | cons c m ih =>
    obtain ⟨k, v⟩ := c
    have hm' := hm
    simp only [Memory.wfFrom, Bool.and_eq_true, decide_eq_true_eq] at hm
    cases n with
    | nil =>
      have := h k
      simp only [Memory.read, if_true] at this
      exact absurd this hm.1.2
    | cons d n =>
      obtain ⟨j, w⟩ := d
      have hn' := hn
      simp only [Memory.wfFrom, Bool.and_eq_true, decide_eq_true_eq] at hn
      have hkj : k = j := by
        rcases Nat.lt_trichotomy k j with hlt | heq | hgt
        · have h1 := h k
          have hjk : j ≠ k := by omega
          simp only [Memory.read, if_true, hjk, if_false] at h1
          rw [Memory.read_below n size (j + 1) k hn.2 (by omega)] at h1
          exact absurd h1 hm.1.2
        · exact heq
        · have h1 := h j
          have hjk : k ≠ j := by omega
          simp only [Memory.read, if_true, hjk, if_false] at h1
          rw [Memory.read_below m size (k + 1) j hm.2 (by omega)] at h1
          exact absurd h1.symm hn.1.2
      subst hkj
      have hvw : v = w := by simpa [Memory.read] using h k
      subst hvw
      refine congrArg _ (ih n (k + 1) hm.2 hn.2 fun a => ?_)
      by_cases ha : k = a
      · subst ha
        rw [Memory.read_below m size (k + 1) k hm.2 (by omega), Memory.read_below n size (k + 1) k hn.2 (by omega)]
      · simpa [Memory.read, ha] using h a

/-- Nothing is listed at reset. -/
theorem State.reset_mem_wf : State.reset.mem.wf Config.sysMemSize = true := rfl

end Sys2Proof.Machine
end

