-- ==== Sys2Proof/Laws/Device.lean ====
section
/-! SUPPORT. The slave's cells keep their canonical form (20_memory R76 to R79). -/

namespace Sys2Proof.Machine

/-! The initial state of the reference slave (20_memory R76) -/

variable (devAddr : BitVec 7) (cells : Memory) (ptr : Byte)

@[simp] theorem RefSlave.initial_devAddr : (RefSlave.initial devAddr cells ptr).devAddr = devAddr := rfl
@[simp] theorem RefSlave.initial_cells : (RefSlave.initial devAddr cells ptr).cells = cells := rfl
@[simp] theorem RefSlave.initial_ptr : (RefSlave.initial devAddr cells ptr).ptr = ptr := rfl
@[simp] theorem RefSlave.initial_mode : (RefSlave.initial devAddr cells ptr).mode = .off := rfl
@[simp] theorem RefSlave.initial_ctl : (RefSlave.initial devAddr cells ptr).ctl = false := rfl

/-- A reference slave that starts with cells in canonical form has its data in canonical form. -/
theorem Device.wf_initialReference (h : cells.wf Config.eepromSize = true) :
    (Device.initialReference devAddr cells ptr).Wf := h

/-! What the slave's events and answers keep -/

theorem Device.wf_onEvent (d : Device) (e : BusEvent) (h : d.Wf) : (d.onEvent e).Wf := by
  cases d with
  | oracle tx rx n => trivial
  | reference r => cases e <;> exact h

theorem Device.wf_answerTx (d : Device) (b : Byte) (h : d.Wf) : (d.answerTx b).2.Wf := by
  cases d with
  | oracle tx rx n => cases tx <;> trivial
  | reference r =>
    simp only [Device.answerTx, Device.Wf, RefSlave.answerTx] at h ⊢
    split
    · split <;> exact h
    · split <;> try exact h
      exact Memory.wf_write _ _ _ _ r.ptr.isLt h

theorem Device.wf_answerRx (d : Device) (h : d.Wf) : d.answerRx.2.Wf := by
  cases d with
  | oracle tx rx n => cases rx <;> trivial
  | reference r =>
    simp only [Device.answerRx, Device.Wf, RefSlave.answerRx] at h ⊢
    split <;> exact h

end Sys2Proof.Machine
end

