-- ==== Sys2Proof/Laws/Encoding.lean ====
section
/-! SUPPORT. The fields of a word and the words of fields; which fields decode (30_encoding R90 to R92). -/

namespace Sys2Proof

/-- A word is its two fields. -/
theorem toWord_ofWord (w : Word) : (CmdFields.ofWord w).toWord = w := by
  apply BitVec.eq_of_toNat_eq
  simp only [CmdFields.toWord, CmdFields.ofWord, BitVec.toNat_append, BitVec.extractLsb'_toNat]
  rw [← Nat.shiftLeft_add_eq_or_of_lt (Nat.mod_lt _ (by decide))]
  simp only [Nat.shiftRight_eq_div_pow, Nat.shiftLeft_eq]
  have := w.isLt
  omega

/-- A word is its two bytes. -/
theorem wordOfBytes_bytes (w : Word) : wordOfBytes (w.extractLsb' 0 8) (w.extractLsb' 8 8) = w := by
  apply BitVec.eq_of_toNat_eq
  simp only [wordOfBytes, BitVec.toNat_append, BitVec.extractLsb'_toNat]
  rw [← Nat.shiftLeft_add_eq_or_of_lt (Nat.mod_lt _ (by decide))]
  simp only [Nat.shiftRight_eq_div_pow, Nat.shiftLeft_eq]
  have := w.isLt
  omega

/-- An assigned operation code is the code of a command. -/
theorem opcode_cases (op : BitVec 4) (h : op.toNat < 0xA) :
    op = 0x0 ∨ op = 0x1 ∨ op = 0x2 ∨ op = 0x3 ∨ op = 0x4 ∨ op = 0x5 ∨ op = 0x6 ∨ op = 0x7 ∨ op = 0x8 ∨ op = 0x9 := by
  revert op
  decide

/-- A reserved operation code names no command (30_encoding R92). -/
theorem instrOfOpcode_reserved (op : BitVec 4) (h : 0xA ≤ op.toNat) : instrOfOpcode op = none := by
  revert op
  decide

/-- The word a command decodes from is its own word (30_encoding R91, R92). -/
theorem eq_encode_of_decodeWord {w : Word} {i : Instr} (h : decodeWord w = .ok i) : w = encode i := by
  unfold decodeWord decodeFields at h
  split at h
  · cases h
  · rename_i hr
    split at h
    · rename_i j hj
      cases h
      have hop : (CmdFields.ofWord w).op.toNat < 0xA := by
        by_contra hn
        rw [instrOfOpcode_reserved _ (by omega)] at hj
        cases hj
      have hf : CmdFields.ofWord w = { op := (CmdFields.ofWord w).op, rsv := 0 } := by
        rw [← not_not.mp hr]
      have hc := opcode_cases _ hop
      rw [← toWord_ofWord w, hf]
      generalize (CmdFields.ofWord w).op = op at hc hj ⊢
      rcases hc with rfl | rfl | rfl | rfl | rfl | rfl | rfl | rfl | rfl | rfl <;> cases hj <;> rfl
    · cases h

end Sys2Proof
end

