-- ==== Sys2Proof/Laws/Engine.lean ====
section
/-! SUPPORT. Which agent is enabled, and everything one engine step can do. -/

namespace Sys2Proof.Machine

variable {s t : State}

/-- BUS is enabled exactly when READY = 0 (40_bus_primitive R125). -/
theorem enabledAgent_eq_bus_iff : s.enabledAgent = some .bus ↔ s.ready = false := by
  unfold State.enabledAgent
  split
  · simp_all
  · split
    · split <;> simp_all
    · split <;> simp_all

/-- SEQ is enabled exactly when SBUSY = 1, READY = 1 and CE_ARMED = 0 (41_block_transfer R164). -/
theorem enabledAgent_eq_seq_iff :
    s.enabledAgent = some .seq ↔ s.sbusy = true ∧ s.ready = true ∧ s.ceArmed = false := by
  unfold State.enabledAgent
  split
  · simp_all
  · split
    · split <;> simp_all
    · split <;> simp_all

/-- CE is enabled exactly when it is armed, READY = 1 and its trigger holds (41_block_transfer R172). -/
theorem enabledAgent_eq_ce_iff :
    s.enabledAgent = some .ce ↔ s.ceArmed = true ∧ s.ready = true ∧
      ((s.sdir = false ∧ s.bstate = .addressing) ∨ (s.sdir = true ∧ s.bstate = .receivingByte)) := by
  unfold State.enabledAgent
  split
  · simp_all
  · split
    · split <;> simp_all
    · split <;> simp_all

/-- The host's coming steps do not enter into which agent is enabled. -/
@[simp] theorem enabledAgent_inputs (ins : List Input) :
    ({ s with inputs := ins } : State).enabledAgent = s.enabledAgent := rfl

/-- Everything a completed transmit phase can be: acknowledged, or failed after its event
(40_bus_primitive R122, R126). -/
theorem finishTx_cases (s : State) :
    (s.finishTx = { s with device := (s.device.answerTx s.shift).2.onEvent (.tx s.shift .ack),
                           history := s.history ++ [.tx s.shift .ack], ready := true } ∧
      (s.device.answerTx s.shift).1 = .ack) ∨
    (∃ e, (e = .tx s.shift .nack ∨ e = .txTimeout s.shift) ∧
      s.finishTx = ({ s with device := (s.device.answerTx s.shift).2.onEvent e,
                             history := s.history ++ [e] } : State).fail ∧
      (s.device.answerTx s.shift).1 ≠ .ack) := by
  unfold State.finishTx
  cases h : (s.device.answerTx s.shift).1 with
  | ack => exact .inl ⟨rfl, rfl⟩
  | nack => exact .inr ⟨_, .inl rfl, rfl, by decide⟩
  | late => exact .inr ⟨_, .inr rfl, rfl, by decide⟩

/-- Everything a completed receive phase can be: a byte, or failed after its event (40_bus_primitive R123, R126). -/
theorem finishRx_cases (s : State) :
    (∃ v, s.device.answerRx.1 = .data v ∧
      s.finishRx = { s with
        device := s.device.answerRx.2.onEvent (.rx v (if s.rxack = true then .ack else .nack))
        history := s.history ++ [.rx v (if s.rxack = true then .ack else .nack)]
        rxdata := v
        mrecv := if s.rxack = false then false else s.mrecv
        ready := true }) ∨
    (s.device.answerRx.1 = .late ∧
      s.finishRx = ({ s with device := s.device.answerRx.2.onEvent .rxTimeout,
                             history := s.history ++ [.rxTimeout] } : State).fail) := by
  unfold State.finishRx
  cases h : s.device.answerRx.1 with
  | data v => exact .inl ⟨v, rfl, rfl⟩
  | late => exact .inr ⟨rfl, rfl⟩

/-- Everything a step of BUS can be (40_bus_primitive R125). -/
theorem busStep_cases (h : busStep s = .next t) :
    ((s.bstate = .startPending ∨ s.bstate = .addressing ∨ s.bstate = .transmittingByte) ∧ t = s.finishTx) ∨
    (s.bstate = .receivingByte ∧ t = s.finishRx) ∨
    (s.bstate = .stopPending ∧ t = s.completeStop) := by
  unfold busStep at h
  cases hb : s.bstate <;> simp_all

/-- Everything a step of SEQ can be (41_block_transfer R164). -/
theorem seqStep_cases (h : seqStep s = .next t) :
    (s.sstep = .ssStart ∧ t = s.seqStart) ∨ (s.sstep = .ssAddr ∧ t = s.seqAddr) ∨
    (s.sstep = .ssRestart ∧ t = s.seqRestart) ∨ (s.sstep = .ssRdata ∧ t = s.seqRdata) ∨
    (s.sstep = .ssStop ∧ t = s.seqStop) ∨ (s.sstep = .ssNext ∧ t = s.seqNext) ∨
    (s.sstep = .ssAbort ∧ t = s.seqAbort) := by
  unfold seqStep at h
  cases hb : s.sstep <;> simp_all

/-- Everything a step of CE can be (41_block_transfer R173, R174). -/
theorem ceStep_cases (h : ceStep s = .next t) :
    s.ceAddress < Config.sysMemSize ∧
    ((s.sdir = false ∧
        t = { s with txdata := s.mem.read s.ceAddress, ceArmed := false, shift := s.mem.read s.ceAddress,
                     bstate := .transmittingByte, ready := false }) ∨
     (s.sdir = true ∧ t = { s with mem := s.mem.write s.ceAddress s.rxdata, ceArmed := false })) := by
  unfold ceStep ceMoveWrite ceMoveRead at h
  by_cases ha : s.ceAddress < Config.sysMemSize
  · cases hd : s.sdir with
    | false => simp only [hd, ha, if_true] at h; cases h; exact ⟨ha, .inl ⟨rfl, rfl⟩⟩
    | true => simp only [hd, ha, if_true] at h; cases h; exact ⟨ha, .inr ⟨rfl, rfl⟩⟩
  · cases hd : s.sdir <;> simp [hd, ha] at h

end Sys2Proof.Machine
end

