-- ==== Sys2Proof/Laws/Flags.lean ====
section
/-! SUPPORT. The bits and the numeric values of the STATUS and CTRL words (10_state R21, R24). -/

namespace Sys2Proof.Machine

theorem toNat_append_eq_add {n k : Nat} (x : BitVec n) (y : BitVec k) :
    (x ++ y).toNat = x.toNat * 2 ^ k + y.toNat := by
  rw [BitVec.toNat_append, ← Nat.shiftLeft_add_eq_or_of_lt y.isLt, Nat.shiftLeft_eq]

/-- STATUS as a number (10_state R24). -/
theorem statusWord_toNat (s : State) :
    s.statusWord.toNat = s.bstate.code.toNat + 0x8 * s.held.toNat + 0x10 * s.rxmode.toNat + 0x20 * s.ready.toNat +
      0x40 * s.sbusy.toNat + 0x80 * s.byte.toNat + 0x100 * s.done.toNat + 0x200 * s.err.toNat +
      0x400 * s.errcode.code.toNat + 0x2000 * s.ceArmed.toNat + 0x4000 * s.mrecv.toNat + 0x8000 * s.sdir.toNat := by
  simp only [State.statusWord, toNat_append_eq_add, BitVec.toNat_ofBool]
  omega

/-- CTRL as a number (10_state R21). -/
theorem ctrlWord_toNat (s : State) :
    s.ctrlWord.toNat = s.en.toNat + 2 * s.byteIe.toNat + 4 * s.doneIe.toNat + 8 * s.errIe.toNat := by
  have h0 : (0 : BitVec 12).toNat = 0 := rfl
  simp only [State.ctrlWord, toNat_append_eq_add, BitVec.toNat_ofBool, h0]
  omega

/-- Bit 5 of STATUS is READY (10_state R24). -/
theorem statusWord_bit5 (s : State) : s.statusWord.getLsbD 5 = s.ready := by
  simp only [State.statusWord, BitVec.getLsbD_append]
  simp

/-- Bit 6 of STATUS is SBUSY (10_state R24). -/
theorem statusWord_bit6 (s : State) : s.statusWord.getLsbD 6 = s.sbusy := by
  simp only [State.statusWord, BitVec.getLsbD_append]
  simp

end Sys2Proof.Machine
end

