-- ==== Sys2Proof/Laws/PerInstr.lean ====
section
/-! SUPPORT. Per instruction: its word's fields are well formed, and the word decodes to it (30_encoding R90 to R92). -/

namespace Sys2Proof.Laws.FieldsRoundTrip

/-- The fields of a command's word pass both checks of 30_encoding R92, the word is their concatenation, and decoding
it, as a word and as bytes, gives the command. -/
def Statement (i : Instr) : Prop :=
  (encodeFields i).wellFormed = true ∧ CmdFields.ofWord (encode i) = encodeFields i ∧
  decodeWord (encode i) = .ok i ∧ decode (encodeBytes i) = .ok (i, [])

theorem nop : Statement .nop := ⟨rfl, rfl, rfl, rfl⟩
theorem startW : Statement .startW := ⟨rfl, rfl, rfl, rfl⟩
theorem startR : Statement .startR := ⟨rfl, rfl, rfl, rfl⟩
theorem sendAddr : Statement .sendAddr := ⟨rfl, rfl, rfl, rfl⟩
theorem sendData : Statement .sendData := ⟨rfl, rfl, rfl, rfl⟩
theorem recvAck : Statement .recvAck := ⟨rfl, rfl, rfl, rfl⟩
theorem recvNack : Statement .recvNack := ⟨rfl, rfl, rfl, rfl⟩
theorem stop : Statement .stop := ⟨rfl, rfl, rfl, rfl⟩
theorem xferW : Statement .xferW := ⟨rfl, rfl, rfl, rfl⟩
theorem xferR : Statement .xferR := ⟨rfl, rfl, rfl, rfl⟩

end Sys2Proof.Laws.FieldsRoundTrip
end

