-- ==== Sys2Proof/Laws/Step.lean ====
section
/-! SUPPORT. Everything one step of the machine can be: the host's due step, or a step of the enabled agent. -/

namespace Sys2Proof.Machine

variable {s t : State}

/-- A step is the host's due step on the state that has taken its input, or a step of the enabled agent while the
host waits, its coming steps the same ones (00_scope R9). -/
theorem step_cases {r : Result} (h : step s = r) :
    (∃ i rest, s.inputs = i :: rest ∧ s.dueOp = some i.op ∧ hostStep i.op { s with inputs := rest } = r) ∨
    (∃ a ins, s.enabledAgent = some a ∧ s.dueOp = none ∧ ins.map Input.op = s.inputs.map Input.op ∧
      agentStep a { s with inputs := ins } = r) ∨
    (s.inputs = [] ∧ s.enabledAgent = none ∧ r = .fault .stuck) := by
  unfold step nextStep at h
  unfold State.dueOp
  cases hi : s.inputs with
  | nil =>
    cases ha : s.enabledAgent with
    | none => simp [hi, ha] at h; simp [h]
    | some a =>
      simp only [hi, ha] at h
      refine .inr (.inl ⟨a, [], rfl, rfl, rfl, ?_⟩)
      rw [← h]
      congr 1
      cases s
      simp_all
  | cons i rest =>
    cases ha : s.enabledAgent with
    | none =>
      simp only [hi, ha] at h
      exact .inl ⟨i, rest, rfl, rfl, h⟩
    | some a =>
      simp only [hi, ha] at h
      by_cases h0 : i.after = 0
      · rw [if_pos h0] at h
        exact .inl ⟨i, rest, rfl, by simp [h0], h⟩
      · rw [if_neg h0] at h
        exact .inr (.inl ⟨a, { i with after := i.after - 1 } :: rest, rfl, by simp [h0], rfl, h⟩)

/-- Everything a host step that gives a next state can be (10_state R22 to R35, R44; 20_memory R65; 70_reset R250). -/
theorem hostStep_cases {op : HostOp} (h : hostStep op s = .next t) :
    (∃ w o r, op = .read w o ∧ accessedReg w o = some r ∧ t = { s with hostData := s.readReg r }) ∨
    (∃ w o v r, op = .write w o v ∧ accessedReg w o = some r ∧ writeReg r v s = .next t) ∨
    (∃ a, op = .memRead a ∧ t = { s with hostData := (s.mem.read a.toNat).setWidth 16 }) ∨
    (∃ a b, op = .memWrite a b ∧ t = { s with mem := s.mem.write a.toNat b }) ∨
    (∃ d, op = .reset d ∧ t = s.resetBlock d) := by
  cases op with
  | read w o =>
    simp only [hostStep] at h
    split at h
    · rename_i r hr
      cases h
      exact .inl ⟨w, o, r, rfl, hr, rfl⟩
    · cases h
  | write w o v =>
    simp only [hostStep] at h
    split at h
    · rename_i r hr
      exact .inr (.inl ⟨w, o, v, r, rfl, hr, h⟩)
    · cases h
  | memRead a => cases h; exact .inr (.inr (.inl ⟨a, rfl, rfl⟩))
  | memWrite a b => cases h; exact .inr (.inr (.inr (.inl ⟨a, b, rfl, rfl⟩)))
  | reset d => cases h; exact .inr (.inr (.inr (.inr ⟨d, rfl, rfl⟩)))

/-- Everything a register write can do: nothing, the latch of a refused write, a written register, the acknowledged
flags, or a command (10_state R22 to R35). -/
theorem writeReg_cases {r : Reg} {v : Word} (h : writeReg r v s = .next t) :
    (r = .cmd ∧ writeCmd v s = .next t) ∨
    (r = .ctrl ∧ t = s.writeCtrl v) ∨
    (r = .status ∧ t = s.acknowledge v) ∨
    ((r = .completed ∨ r = .rxdata ∨ r = .reserved) ∧ t = s) ∨
    (r ≠ .cmd ∧ t = s.raise .requestRejected) ∨
    (r = .addr ∧ s.sbusy = false ∧ t = { s with addr := v.setWidth 8 }) ∨
    (r = .count ∧ s.sbusy = false ∧ t = { s with count := v }) ∨
    (r = .bufptr ∧ s.sbusy = false ∧ t = { s with bufptr := v }) ∨
    (r = .txdata ∧ s.sbusy = false ∧ t = { s with txdata := v.setWidth 8 }) ∨
    (r = .slave ∧ s.sbusy = false ∧ s.held = false ∧ t = { s with slave := v.setWidth 7 }) := by
  cases r with
  | cmd => exact .inl ⟨rfl, h⟩
  | ctrl => cases h; simp
  | status => cases h; simp
  | completed => cases h; simp
  | rxdata => cases h; simp
  | reserved => cases h; simp
  | addr =>
    cases h
    cases hb : s.sbusy <;> simp [State.writeAddr, hb]
  | count =>
    cases h
    cases hb : s.sbusy <;> simp [State.writeCount, hb]
  | bufptr =>
    cases h
    cases hb : s.sbusy <;> simp [State.writeBufptr, hb]
  | txdata =>
    cases h
    cases hb : s.sbusy <;> simp [State.writeTxdata, hb]
  | slave =>
    cases h
    cases hb : s.sbusy <;> cases hh : s.held <;> simp [State.writeSlave, hb, hh]

/-- No steps. -/
@[simp] theorem runState_zero (s : State) : runState 0 s = some s := rfl

/-- One step, then the rest. -/
theorem runState_succ {k : Nat} (h : step s = .next t) : runState (k + 1) s = runState k t := by
  unfold runState
  simp only [Host.Core.run]
  rw [show Host.Core.step core s = .next t from h]

/-- A step of the engine when the host makes no further step. -/
theorem step_of_no_inputs {a : Agent} (hi : s.inputs = []) (ha : s.enabledAgent = some a) :
    step s = agentStep a s := by
  unfold step nextStep
  rw [hi, ha]

end Sys2Proof.Machine
end

