-- ==== Sys2Proof/Tests/Slice0.lean ====
section
/-! SUPPORT. Small tests whose expected results stand in the spec, and a witness of the hypotheses of every statement
that has some. -/

namespace Sys2Proof.Tests

open Sys2Proof Sys2Proof.Machine

/-! ### Well-formedness: one ill-formed term for each check -/

/-- RSV not 0 is refused (30_encoding R92). -/
theorem test_rsv_nonzero_ill_formed :
    (CmdFields.mk 0x1 0x001).wellFormed = false ∧ (CmdFields.mk 0x1 0x800).wellFormed = false ∧
    (CmdFields.mk 0x1 0x001).opAssigned = true := by decide

/-- OP 0xA to 0xF is refused (30_encoding R92). -/
theorem test_reserved_opcode_ill_formed :
    (CmdFields.mk 0xA 0x000).wellFormed = false ∧ (CmdFields.mk 0xF 0x000).wellFormed = false ∧
    (CmdFields.mk 0xA 0x000).rsvZero = true := by decide

theorem test_last_opcode_well_formed : (CmdFields.mk 0x9 0x000).wellFormed = true := by decide

/-! ### Decoding: the words of 30_encoding R91, written out bit by bit from R90 -/

theorem test_decode_nop : decodeWord 0b0000000000000000 = .ok .nop := rfl
theorem test_decode_start_w : decodeWord 0b0000000000000001 = .ok .startW := rfl
theorem test_decode_start_r : decodeWord 0b0000000000000010 = .ok .startR := rfl
theorem test_decode_send_addr : decodeWord 0b0000000000000011 = .ok .sendAddr := rfl
theorem test_decode_send_data : decodeWord 0b0000000000000100 = .ok .sendData := rfl
theorem test_decode_recv_ack : decodeWord 0b0000000000000101 = .ok .recvAck := rfl
theorem test_decode_recv_nack : decodeWord 0b0000000000000110 = .ok .recvNack := rfl
theorem test_decode_stop : decodeWord 0b0000000000000111 = .ok .stop := rfl
theorem test_decode_xfer_w : decodeWord 0b0000000000001000 = .ok .xferW := rfl
theorem test_decode_xfer_r : decodeWord 0b0000000000001001 = .ok .xferR := rfl

/-- Illegal words, and bytes that are no whole word (30_encoding R92, R94). -/
theorem test_decode_illegal :
    decodeWord 0x000A = .error .reservedOpcode ∧ decodeWord 0x000F = .error .reservedOpcode ∧
    decodeWord 0x0010 = .error .reservedBitsSet ∧ decodeWord 0x8000 = .error .reservedBitsSet ∧
    decode [] = .error .truncated ∧ decode [0x01] = .error .truncated := ⟨rfl, rfl, rfl, rfl, rfl, rfl⟩

/-- The low byte comes first (20_memory R62). -/
theorem test_decode_bytes :
    decode [0x09, 0x00, 0x55] = .ok (.xferR, [0x55]) ∧ decode [0x00, 0x09] = .error .reservedBitsSet ∧
    decodeTableWord 16 0x0008 = some .xferW := ⟨rfl, rfl, rfl⟩

/-! ### The states the tests start from -/

/-- Enabled and idle, SLAVE = 0x50 (95_test_vectors: STATUS = 0x0020). -/
def idle : State := { State.reset with en := true, slave := 0x50 }

/-- START_W acknowledged: STATUS = 0x0029 (40_bus_primitive R115). -/
def inWrite : State := { idle with bstate := .startPending, held := true, history := [.start, .tx 0xA0 .ack] }

/-- START_R acknowledged: STATUS = 0x4039 (40_bus_primitive R116). -/
def inRead : State :=
  { idle with bstate := .startPending, held := true, rxmode := true, mrecv := true, shift := 0xA1 }

/-- A received byte NACKed: STATUS = 0x003C (40_bus_primitive R120). -/
def received : State := { inRead with bstate := .receivingByte, mrecv := false }

/-- An active transfer of two bytes at cells 5 and 6, buffer at 0x0200, about to take the action `st`. -/
def active (dir : Bool) (st : SeqStep) : State :=
  { idle with sbusy := true, sdir := dir, sstep := st, addr := 5, count := 2, bufptr := 0x0200 }

/-- The same, past its start: the bus is held in transmit mode. -/
def activeHeld (dir : Bool) (st : SeqStep) (b : BusState) : State :=
  { active dir st with held := true, bstate := b }

/-- The copy engine armed after the address byte of a write. -/
def armedWrite : State := { activeHeld false .ssStop .addressing with ceArmed := true, mem := [(0x0200, 0xAB)] }

/-- The copy engine armed after the received byte of a read. -/
def armedRead : State :=
  { activeHeld true .ssStop .receivingByte with ceArmed := true, rxmode := true, rxdata := 0xCD }

/-- A start of a read byte's second half is acknowledged: the receive is next. -/
def beforeReceive : State :=
  { activeHeld true .ssRdata .startPending with rxmode := true, mrecv := true, shift := 0xA1 }

/-! ### One step of each command, from the examples of its rule -/

/-- What a test looks at: STATUS, SHIFT and the history after a result. -/
def seen (r : Result) : Option (Word × Byte × List BusEvent) :=
  (stateOf r).map fun t => (t.statusWord, t.shift, t.history)

/-- STATUS after a result. -/
def statusOf (r : Result) : Option Word := (stateOf r).map State.statusWord

/-- 40_bus_primitive R114: accepted while a transfer is active. -/
theorem test_nop : exec .nop (active false .ssStart) = .next (active false .ssStart) := rfl

/-- 40_bus_primitive R115. -/
theorem test_start_w : seen (exec .startW idle) = some (0x0009, 0xA0, [.start]) := by decide

/-- 40_bus_primitive R113: a start while HELD = 1 is a repeated start. -/
theorem test_start_w_repeated : seen (exec .startW inWrite) = some (0x0009, 0xA0, [.start, .tx 0xA0 .ack, .repStart]) := by
  decide

/-- 40_bus_primitive R116. -/
theorem test_start_r :
    seen (exec .startR { inWrite with bstate := .addressing }) =
      some (0x4019, 0xA1, [.start, .tx 0xA0 .ack, .repStart]) := by decide

/-- 30_encoding R98: illegal while a received byte is owed; ERR and ERRCODE = 4 join 0x4039. -/
theorem test_start_r_illegal : statusOf (exec .startR inRead) = some 0x5239 := by decide

/-- 40_bus_primitive R117. -/
theorem test_send_addr :
    seen (exec .sendAddr { inWrite with addr := 0x05 }) = some (0x000A, 0x05, [.start, .tx 0xA0 .ack]) := by decide

/-- 30_encoding R98: IllegalCommand while the bus is free. -/
theorem test_send_addr_idle : statusOf (exec .sendAddr idle) = some 0x1220 := by decide

/-- 40_bus_primitive R118. -/
theorem test_send_data :
    seen (exec .sendData { inWrite with bstate := .addressing, txdata := 0x3C }) =
      some (0x000B, 0x3C, [.start, .tx 0xA0 .ack]) := by decide

/-- 30_encoding R97 check 3: RequestRejected while EN = 0. -/
theorem test_send_data_disabled : statusOf (exec .sendData State.reset) = some 0x0A20 := by decide

/-- 40_bus_primitive R119: STATUS = 0x401C, then 0x403C and RXDATA = 0x11 with answer Data(0x11). -/
theorem test_recv_ack :
    statusOf (exec .recvAck inRead) = some 0x401C ∧
    (stateOf (agentStep .bus { inRead with
      bstate := .receivingByte, ready := false, rxack := true, device := .oracle [] [.data 0x11] 0 })).map
      (fun t => (t.statusWord, t.rxdata, t.history)) = some (0x403C, 0x11, [.rx 0x11 .ack]) := by decide

/-- 40_bus_primitive R120: STATUS = 0x401C, then 0x003C and RXDATA = 0x5A with answer Data(0x5A). -/
theorem test_recv_nack :
    statusOf (exec .recvNack inRead) = some 0x401C ∧
    (stateOf (agentStep .bus { inRead with
      bstate := .receivingByte, ready := false, rxack := false, device := .oracle [] [.data 0x5A] 0 })).map
      (fun t => (t.statusWord, t.rxdata, t.history)) = some (0x003C, 0x5A, [.rx 0x5A .nack]) := by decide

/-- 40_bus_primitive R121: STATUS = 0x000D, then Stop and 0x0020. -/
theorem test_stop :
    statusOf (exec .stop { inWrite with bstate := .transmittingByte }) = some 0x000D ∧
    statusOf (agentStep .bus { inWrite with bstate := .stopPending, ready := false }) = some 0x0020 := by decide

/-- 40_bus_primitive R121: STOP while the bus is free is IllegalCommand. -/
theorem test_stop_idle : statusOf (exec .stop idle) = some 0x1220 := by decide

/-- 41_block_transfer R161, R163: accepted up to cell 0xFF; OutOfRange past it. -/
theorem test_xfer_w :
    statusOf (exec .xferW { idle with addr := 0xFF, count := 1 }) = some 0x0060 ∧
    statusOf (exec .xferW { idle with addr := 0xFF, count := 2 }) = some 0x0E20 := by decide

/-- 41_block_transfer R163: COUNT = 0 is done at once. -/
theorem test_xfer_w_zero : statusOf (exec .xferW { idle with byte := true }) = some 0x0120 := by decide

/-- 41_block_transfer R162, R163: a buffer up to the top of system memory is accepted; one byte more is not. -/
theorem test_xfer_r :
    statusOf (exec .xferR { idle with bufptr := 0xFFFE, count := 2 }) = some 0x8060 ∧
    statusOf (exec .xferR { idle with bufptr := 0xFFFF, count := 2 }) = some 0x0E20 := by decide

/-- 60_exceptions R213 item 4: XFER_R while a manual transaction holds the bus. -/
theorem test_xfer_r_held : statusOf (exec .xferR inWrite) = some 0x0A29 := by decide

/-- 40_bus_primitive R126: a NACK inside a transfer aborts it: ERR, ERRCODE = 1, StopPending, SS_ABORT. -/
theorem test_fail :
    (stateOf (agentStep .bus { armedWrite with ready := false, shift := 0x05, device := .oracle [.nack] [] 0 })).map
      (fun t => (t.statusWord, t.sstep, t.history)) = some (0x064D, .ssAbort, [.tx 0x05 .nack]) := by decide

/-- 10_state R26: CLRFLAGS leaves ERRCODE. -/
theorem test_clrflags :
    statusOf (hostStep clrFlags { idle with byte := true, done := true, err := true, errcode := .outOfRange }) =
      some 0x0C20 := by decide

/-- The memory keeps its canonical form: writing 0 removes the entry. -/
theorem test_memory_canonical :
    Memory.write [(0x10, 0xAA), (0x20, 0xBB)] 0x10 0x00 = [(0x20, 0xBB)] ∧
    Memory.write [(0x10, 0xAA)] 0x08 0x01 = [(0x08, 0x01), (0x10, 0xAA)] := by decide

/-! ### States that meet the invariant -/

/-- A state with any oracle for its slave meets the invariant when the parts that are computed come out true. -/
theorem inv_of {s : State} (bus : s.BusConsistent) (busy : s.sbusy = false ↔ s.sstep = .ssIdle)
    (seq : s.SequencerConsistent) (request : s.RequestConsistent)
    (enabled : s.sbusy = true ∨ s.held = true → s.en = true) (memory : s.mem.wf Config.sysMemSize = true)
    {tx : List TxAnswer} {rx : List RxAnswer} {n : Nat} (slave : s.device = .oracle tx rx n) : s.Inv :=
  ⟨bus, busy, seq, request, enabled, memory, by rw [slave]; trivial⟩

theorem inv_reset : State.reset.Inv :=
  inv_of (by decide) (by decide) rfl (by decide) (by decide) rfl rfl

theorem inv_idle : idle.Inv := inv_of (by decide) (by decide) rfl (by decide) (by decide) rfl rfl

theorem inv_inWrite : inWrite.Inv := inv_of (by decide) (by decide) rfl (by decide) (by decide) rfl rfl

theorem inv_inRead : inRead.Inv := inv_of (by decide) (by decide) rfl (by decide) (by decide) rfl rfl

theorem inv_received : received.Inv := inv_of (by decide) (by decide) rfl (by decide) (by decide) rfl rfl

theorem inv_start (d : Bool) : (active d .ssStart).Inv := by
  cases d <;> exact inv_of (by decide) (by decide) ⟨rfl, rfl⟩ (by decide) (by decide) rfl rfl

theorem inv_addr (d : Bool) : (activeHeld d .ssAddr .startPending).Inv := by
  cases d <;> exact inv_of (by decide) (by decide) ⟨rfl, rfl, rfl, rfl⟩ (by decide) (by decide) rfl rfl

theorem inv_restart : (activeHeld true .ssRestart .addressing).Inv :=
  inv_of (by decide) (by decide) ⟨rfl, rfl, rfl, rfl⟩ (by decide) (by decide) rfl rfl

theorem inv_beforeReceive : beforeReceive.Inv :=
  inv_of (by decide) (by decide) ⟨rfl, rfl, rfl, rfl, rfl⟩ (by decide) (by decide) rfl rfl

theorem inv_stop : (activeHeld false .ssStop .transmittingByte).Inv :=
  inv_of (by decide) (by decide) ⟨rfl, by decide, by decide⟩ (by decide) (by decide) rfl rfl

theorem inv_next (c : Word) (h : c = 0 ∨ c = 1) : { active false .ssNext with completed := c, addr := 5 }.Inv := by
  rcases h with rfl | rfl <;>
    exact inv_of (by decide) (by decide) ⟨rfl, by decide, by decide⟩ (by decide) (by decide) rfl rfl

theorem inv_abort : (active true .ssAbort).Inv :=
  inv_of (by decide) (by decide) ⟨rfl, by decide, by decide⟩ (by decide) (by decide) rfl rfl

theorem inv_armedWrite : armedWrite.Inv :=
  inv_of (by decide) (by decide) ⟨rfl, by decide, by decide⟩ (by decide) (by decide) (by decide) rfl

theorem inv_armedRead : armedRead.Inv :=
  inv_of (by decide) (by decide) ⟨rfl, by decide, by decide⟩ (by decide) (by decide) rfl rfl

/-! ### A witness of the hypotheses of each statement that has some

Each clause is met at a boundary value of its range. -/

/-- The four sides of the encoding: the last command, the first reserved code, the lowest and highest RSV bit. -/
theorem witness_EveryWordIsACommandOrIllegal :
    ((0x0009 : Word).extractLsb' 4 12 = 0 ∧ ((0x0009 : Word).extractLsb' 0 4).toNat < 0xA) ∧
    0xA ≤ ((0x000A : Word).extractLsb' 0 4).toNat ∧ (0x0010 : Word).extractLsb' 4 12 ≠ 0 ∧
    (0x8000 : Word).extractLsb' 4 12 ≠ 0 := by decide

/-- A due command, first because its wait is over with the engine enabled, then because no agent is enabled; an
illegal word; and the table's word of XFER_R. -/
theorem witness_StepRunsTheWrittenCommand :
    ({ active false .ssStart with inputs := [{ after := 0, op := .write .w16 0x02 0x0007 }] } : State).inputs =
      { after := 0, op := .write .w16 0x02 0x0007 } :: [] ∧
    ({ idle with inputs := [{ after := 3, op := .write .w16 0x02 0x0001 }] } : State).enabledAgent = none ∧
    decodeWord 0x0001 = .ok .startW ∧ decodeWord 0x000A = .error .reservedOpcode ∧
    decodeTableWord 16 0x0009 = some .xferR := ⟨rfl, rfl, rfl, rfl, rfl⟩

/-- A word for each outcome of 30_encoding R97: the checks 1 to 8 failing one by one, NOP, and a command performed. -/
theorem witness_AcceptanceOrder :
    statusOf (hostStep (.write .w16 0x02 0x000A) idle) = some 0x1220 ∧
    statusOf (hostStep (.write .w16 0x02 0x0000) idle) = some 0x0020 ∧
    statusOf (hostStep (.write .w16 0x02 0x0001) State.reset) = some 0x0A20 ∧
    statusOf (hostStep (.write .w16 0x02 0x0001) (active false .ssStart)) = some 0x0A60 ∧
    statusOf (hostStep (.write .w16 0x02 0x0001) { inWrite with ready := false }) = some 0x0A09 ∧
    statusOf (hostStep (.write .w16 0x02 0x0008) inWrite) = some 0x0A29 ∧
    statusOf (hostStep (.write .w16 0x02 0x0005) inWrite) = some 0x1229 ∧
    statusOf (hostStep (.write .w16 0x02 0x0009) { idle with count := 257 }) = some 0x0E20 ∧
    statusOf (hostStep (.write .w16 0x02 0x0009) { idle with count := 256 }) = some 0x8060 := by decide

/-- A start from the free bus, and one inside a transaction. -/
theorem witness_StartCommandsComplete :
    (idle.en = true ∧ idle.sbusy = false ∧ idle.ready = true ∧ ¬(idle.rxmode = true ∧ idle.mrecv = true) ∧
      idle.held = false) ∧
    (received.en = true ∧ received.sbusy = false ∧ received.ready = true ∧
      ¬(received.rxmode = true ∧ received.mrecv = true) ∧ received.held = true) := by decide

theorem witness_SendCommandsComplete :
    inWrite.en = true ∧ inWrite.sbusy = false ∧ inWrite.ready = true ∧ inWrite.held = true ∧
    inWrite.rxmode = false := by decide

theorem witness_ReceiveCommandsComplete :
    inRead.en = true ∧ inRead.sbusy = false ∧ inRead.ready = true ∧ inRead.held = true ∧ inRead.rxmode = true ∧
    inRead.mrecv = true := by decide

/-- A stop in transmit mode, and one after the NACKed last byte. -/
theorem witness_StopCommandCompletes :
    (inWrite.en = true ∧ inWrite.sbusy = false ∧ inWrite.ready = true ∧ inWrite.held = true ∧
      ¬(inWrite.rxmode = true ∧ inWrite.mrecv = true)) ∧
    (received.held = true ∧ received.rxmode = true ∧ received.mrecv = false) := by decide

/-- COUNT = 0 at the last cell, COUNT = 256 from cell 0, and a buffer that ends at the top of system memory. -/
theorem witness_TransferCommandsComplete :
    let z : State := { idle with addr := 0xFF, bufptr := 0xFFFF }
    let a : State := { idle with addr := 0x00, count := 256, bufptr := 0xFF00 }
    (z.en = true ∧ z.sbusy = false ∧ z.ready = true ∧ z.held = false ∧ z.addr.toNat + z.count.toNat ≤ 256 ∧
      z.bufptr.toNat + z.count.toNat ≤ 65536 ∧ z.count = 0) ∧
    (a.en = true ∧ a.sbusy = false ∧ a.ready = true ∧ a.held = false ∧ a.addr.toNat + a.count.toNat = 256 ∧
      a.bufptr.toNat + a.count.toNat = 65536 ∧ a.count ≠ 0) := by decide

/-- Disabled, busy, mid-phase, and the bus held. -/
theorem witness_BusyCommandsAreRejected :
    Instr.stop ≠ .nop ∧ State.reset.en = false ∧ (active true .ssStart).sbusy = true ∧
    ({ inWrite with ready := false } : State).ready = false ∧ inWrite.held = true := by decide

/-- One byte past cell 0xFF, and one byte past the top of system memory. -/
theorem witness_OutOfRangeIsRejected :
    let a : State := { idle with addr := 0xFF, count := 2 }
    let b : State := { idle with bufptr := 0xFFFF, count := 2 }
    (a.en = true ∧ a.sbusy = false ∧ a.ready = true ∧ a.held = false ∧ a.addr.toNat + a.count.toNat = 257) ∧
    (b.en = true ∧ b.sbusy = false ∧ b.ready = true ∧ b.held = false ∧ b.addr.toNat + b.count.toNat ≤ 256 ∧
      b.bufptr.toNat + b.count.toNat = 65537) := by decide

/-- A byte owed; the bus free; receive mode for a send, transmit mode for a receive. -/
theorem witness_IllegalOrderIsRejected :
    (inRead.en = true ∧ inRead.sbusy = false ∧ inRead.ready = true ∧ inRead.rxmode = true ∧ inRead.mrecv = true) ∧
    (idle.en = true ∧ idle.sbusy = false ∧ idle.ready = true ∧ idle.held = false) ∧
    (received.held = true ∧ received.rxmode = true ∧ received.mrecv = false) ∧
    (inWrite.held = true ∧ inWrite.rxmode = false) ∧
    0xA ≤ ((0x000A : Word).extractLsb' 0 4).toNat := by decide

theorem witness_PrimitiveCommandFrame :
    (stateOf (exec .startW idle)).isSome = true ∧ Instr.startW ≠ .xferW ∧ Instr.startW ≠ .xferR ∧
    (stateOf (exec .stop { idle with errIe := true })).map State.irq = some true := by decide

theorem witness_TransferCommandFrame :
    (stateOf (exec .xferW idle)).isSome = true ∧ (stateOf (exec .xferR inWrite)).isSome = true := by decide

/-- SBUSY = 1; and a held bus alone, which locks SLAVE only. -/
theorem witness_LockedWritesAreRejected :
    (active false .ssStart).sbusy = true ∧ inWrite.sbusy = false ∧ inWrite.held = true := by decide

theorem witness_RequestRegisterWrites :
    inWrite.sbusy = false ∧ inWrite.held = true ∧ idle.sbusy = false ∧ idle.held = false := by decide

/-- The last defined offset, the offset after it, an odd offset and another width. -/
theorem witness_OnlyAlignedWordAccessesAreDefined :
    (0x1E % 2 = 0 ∧ 0x1E ≤ 0x1E) ∧ ¬(0x20 ≤ 0x1E) ∧ ¬(0x1D % 2 = 0) ∧ AccessWidth.w8 ≠ .w16 := by decide

/-- IRQ falls by a STATUS write, a CTRL write, a transfer command and a reset. -/
theorem witness_InterruptHeldUntilTheHostActs :
    let s : State := { idle with done := true, doneIe := true, count := 1 }
    let r (op : HostOp) := (stateOf (step { s with inputs := [{ after := 0, op := op }] })).map State.irq
    s.irq = true ∧ r (.write .w16 0x04 0x0100) = some false ∧ r (.write .w16 0x00 0x0001) = some false ∧
    r (.write .w16 0x02 0x0008) = some false ∧ r (.write .w16 0x02 0x0009) = some false ∧
    r (.reset ⟨0, 0, 0, 0, 0, 0, 0, false⟩) = some false := by decide

/-- Each flag set and then cleared by its W1C bit, and BYTE and DONE by a transfer command. -/
theorem witness_FlagsClearedOnlyByTheHost :
    let s : State := { idle with byte := true, done := true, err := true, count := 1 }
    let r (op : HostOp) :=
      (stateOf (step { s with inputs := [{ after := 0, op := op }] })).map fun t => (t.byte, t.done, t.err)
    r (.write .w16 0x04 0x0080) = some (false, true, true) ∧ r (.write .w16 0x04 0x0100) = some (true, false, true) ∧
    r (.write .w16 0x04 0x0200) = some (true, true, false) ∧ r (.write .w16 0x02 0x0008) = some (false, false, true) := by
  decide

/-- A NACKed address byte raises BusTimeout; a reset changes ERRCODE with ERR = 0. -/
theorem witness_ErrorLatchDiscipline :
    (stateOf (step { inWrite with bstate := .addressing, ready := false, device := .oracle [.nack] [] 0 })).map
      (fun t => (t.err, t.errcode)) = some (true, .busTimeout) ∧
    (stateOf (step { idle with
      err := true, errcode := .outOfRange, inputs := [{ after := 0, op := .reset ⟨0, 0, 0, 0, 0, 0, 0, false⟩ }] })).map
      (fun t => (t.err, t.errcode)) = some (false, .none) := by decide

/-- A reset clears EN under an open transaction and under an active transfer. -/
theorem witness_EnableKeptByTheOwnerOfTheBus :
    let r (s : State) := (stateOf (step
      { s with inputs := [{ after := 0, op := .reset ⟨0, 0, 0, 0, 0, 0, 0, false⟩ }] })).map State.en
    inWrite.en = true ∧ inWrite.held = true ∧ r inWrite = some false ∧ (active true .ssStart).en = true ∧
    (active true .ssStart).sbusy = true ∧ r (active true .ssStart) = some false := by decide

/-- Each agent enabled with the host not due: no input left, and an input that still waits. -/
theorem witness_EnabledAgents :
    ({ inWrite with ready := false } : State).enabledAgent = some .bus ∧
    (active false .ssStart).enabledAgent = some .seq ∧ armedWrite.enabledAgent = some .ce ∧
    armedRead.enabledAgent = some .ce ∧ armedRead.dueOp = none ∧
    ({ armedWrite with inputs := [{ after := 1, op := .memRead 0 }] } : State).dueOp = none := by decide

/-- A transmit phase in each of its three states, answered in each of the three ways. -/
theorem witness_TransmitCompletion :
    let a : State := { inWrite with ready := false, device := .oracle [.ack] [] 0 }
    let b : State := { inWrite with bstate := .addressing, ready := false, device := .oracle [.nack] [] 0 }
    let c : State := { inWrite with bstate := .transmittingByte, ready := false, device := .oracle [.late] [] 0 }
    (a.ready = false ∧ a.bstate = .startPending ∧ a.device.answerTx a.shift = (.ack, .oracle [] [] 0)) ∧
    (b.ready = false ∧ b.bstate = .addressing ∧ b.device.answerTx b.shift = (.nack, .oracle [] [] 0)) ∧
    (c.ready = false ∧ c.bstate = .transmittingByte ∧ c.device.answerTx c.shift = (.late, .oracle [] [] 0)) := by
  decide

/-- A receive phase answered with a byte and not answered. -/
theorem witness_ReceiveCompletion :
    let a : State := { inRead with bstate := .receivingByte, ready := false, device := .oracle [] [.data 0xFF] 0 }
    let b : State := { inRead with bstate := .receivingByte, ready := false, device := .oracle [] [.late] 0 }
    (a.ready = false ∧ a.bstate = .receivingByte ∧ a.device.answerRx = (.data 0xFF, .oracle [] [] 0)) ∧
    (b.ready = false ∧ b.bstate = .receivingByte ∧ b.device.answerRx = (.late, .oracle [] [] 0)) := by decide

theorem witness_StopCompletion :
    ({ inWrite with bstate := .stopPending, ready := false } : State).ready = false ∧
    ({ inWrite with bstate := .stopPending, ready := false } : State).bstate = .stopPending := by decide

/-- Each action of SSTEP that issues a phase, in a state that meets the invariant. -/
theorem witness_SequencerIssuesPhases :
    ((active true .ssStart).Inv ∧ (active true .ssStart).enabledAgent = some .seq) ∧
    ((activeHeld false .ssAddr .startPending).Inv ∧
      (activeHeld false .ssAddr .startPending).enabledAgent = some .seq) ∧
    ((activeHeld true .ssAddr .startPending).Inv ∧
      (activeHeld true .ssAddr .startPending).enabledAgent = some .seq) ∧
    ((activeHeld true .ssRestart .addressing).Inv ∧
      (activeHeld true .ssRestart .addressing).enabledAgent = some .seq) ∧
    (beforeReceive.Inv ∧ beforeReceive.enabledAgent = some .seq) ∧
    ((activeHeld false .ssStop .transmittingByte).Inv ∧
      (activeHeld false .ssStop .transmittingByte).enabledAgent = some .seq) :=
  ⟨⟨inv_start true, rfl⟩, ⟨inv_addr false, rfl⟩, ⟨inv_addr true, rfl⟩, ⟨inv_restart, rfl⟩,
    ⟨inv_beforeReceive, rfl⟩, ⟨inv_stop, rfl⟩⟩

/-- A byte before the last, the last byte, and an abort. -/
theorem witness_SequencerCountsBytes :
    (({ active false .ssNext with completed := 0, addr := 5 } : State).Inv ∧ 0 + 1 < (2 : Word).toNat) ∧
    (({ active false .ssNext with completed := 1, addr := 5 } : State).Inv ∧ 1 + 1 = (2 : Word).toNat) ∧
    ({ active false .ssNext with completed := 1, addr := 5 } : State).enabledAgent = some .seq ∧
    ((active true .ssAbort).Inv ∧ (active true .ssAbort).enabledAgent = some .seq) :=
  ⟨⟨inv_next 0 (.inl rfl), by decide⟩, ⟨inv_next 1 (.inr rfl), rfl⟩, rfl, ⟨inv_abort, rfl⟩⟩

theorem witness_CopyEngineMoves :
    (armedWrite.Inv ∧ armedWrite.enabledAgent = some .ce ∧ armedWrite.sdir = false) ∧
    (armedRead.Inv ∧ armedRead.enabledAgent = some .ce ∧ armedRead.sdir = true) :=
  ⟨⟨inv_armedWrite, rfl, rfl⟩, ⟨inv_armedRead, rfl, rfl⟩⟩

theorem witness_HostMemoryReadsLastWrite : Memory.wf 65536 [(0x0200, 0xAB), (0xFFFF, 0x01)] = true := by decide

/-- The host's write at the top of memory, and the copy engine's move, each change a byte. -/
theorem witness_MemoryWriters :
    (idle.Inv ∧ (stateOf (step { idle with inputs := [{ after := 0, op := .memWrite 0xFFFF 0x77 }] })).map
      (fun t => t.mem.read 0xFFFF) = some 0x77 ∧ idle.mem.read 0xFFFF = 0x00) ∧
    (armedRead.Inv ∧ (stateOf (step armedRead)).map (fun t => t.mem.read 0x0200) = some 0xCD ∧
      armedRead.mem.read 0x0200 = 0x00) :=
  ⟨⟨inv_idle, by decide, by decide⟩, ⟨inv_armedRead, by decide, by decide⟩⟩

/-- A step that changes each register, no reset due. -/
theorem witness_RegisterWriters :
    let r (s : State) (op : HostOp) := stateOf (step { s with inputs := [{ after := 0, op := op }] })
    (r idle (.write .w16 0x06 0x0012)).map State.addr = some 0x12 ∧
    (r idle (.write .w16 0x08 0xFFFF)).map State.count = some 0xFFFF ∧
    (r idle (.write .w16 0x0C 0x8000)).map State.bufptr = some 0x8000 ∧
    (r idle (.write .w16 0x0E 0x01A5)).map State.txdata = some 0xA5 ∧
    (r idle (.write .w16 0x12 0xFFD1)).map State.slave = some 0x51 ∧
    (stateOf (step { inRead with
      bstate := .receivingByte, ready := false, device := .oracle [] [.data 0x5A] 0 })).map State.rxdata = some 0x5A ∧
    (r { idle with completed := 7, count := 1 } (.write .w16 0x02 0x0009)).map State.completed = some 0 ∧
    (stateOf (step { active false .ssNext with addr := 0xFF, count := 1 })).map
      (fun t => (t.addr, t.completed)) = some (0x00, 1) ∧
    (stateOf (step armedWrite)).map State.txdata = some 0xAB := by decide

theorem witness_HistoryOnlyGrows : (stateOf (step (active false .ssStart))).map State.history = some [.start] := by
  decide

theorem witness_InvariantAfterReset :
    Memory.wf 65536 [(0xFFFF, 0x01)] = true ∧
    (Device.initialReference 0x50 [(0xFF, 0x22)] 0).Wf :=
  ⟨by decide, show Memory.wf 256 [(0xFF, 0x22)] = true by decide⟩

/-- States that meet the invariant, in which the host, the sequencer, the copy engine and the bus step. -/
theorem witness_EveryStepKeepsTheInvariant :
    (inWrite.Inv ∧ (stateOf (step { inWrite with inputs := [{ after := 0, op := command .sendAddr }] })).isSome = true) ∧
    ((active false .ssStart).Inv ∧ (stateOf (step (active false .ssStart))).isSome = true) ∧
    (armedRead.Inv ∧ (stateOf (step armedRead)).isSome = true) :=
  ⟨⟨inv_inWrite, by decide⟩, ⟨inv_start false, by decide⟩, ⟨inv_armedRead, by decide⟩⟩

theorem witness_InvariantGivesRule41 : (active true .ssStart).Inv ∧ (active true .ssStart).sbusy = true :=
  ⟨inv_start true, rfl⟩

/-- The machine at rest is stuck; a refused access; and an engine step that is neither. -/
theorem witness_TheEngineNeverFaults :
    (State.reset.Inv ∧ step State.reset = .fault .stuck) ∧
    (idle.Inv ∧ step { idle with inputs := [{ after := 0, op := .read .w16 0x20 }] } = .refused .badRegisterAccess) :=
  ⟨⟨inv_reset, rfl⟩, ⟨inv_idle, rfl⟩⟩

theorem witness_ABusyEngineIsEnabled : armedRead.Inv ∧ armedRead.sbusy = true := ⟨inv_armedRead, rfl⟩

/-- Host steps of every kind but reset while a transfer is active. -/
theorem witness_SingleFlight :
    (active false .ssStart).Inv ∧ (active false .ssStart).sbusy = true ∧
    (∀ d, HostOp.write .w16 0x00 0x000F ≠ .reset d) ∧
    (stateOf (hostStep (.write .w16 0x00 0x000F) (active false .ssStart))).map State.errIe = some true ∧
    statusOf (hostStep (command .stop) (active false .ssStart)) = some 0x0A60 ∧
    statusOf (hostStep (.write .w16 0x12 0x0051) (active false .ssStart)) = some 0x0A60 :=
  ⟨inv_start false, rfl, fun _ => by simp, by decide, by decide, by decide⟩

/-- A history in the grammar, and a step of it. -/
theorem witness_EveryStepKeepsTheBusGrammar :
    inWrite.Inv ∧ inWrite.BusLegal ∧
    ¬({ inWrite with inputs := [{ after := 0, op := command .stop }] } : State).ResetDue ∧
    (stateOf (step { inWrite with inputs := [{ after := 0, op := command .stop }] })).isSome = true :=
  ⟨inv_inWrite, ⟨.sending, rfl, by simp [State.busMatches, inWrite, idle, State.reset]⟩,
    fun ⟨_, h⟩ => HostOp.noConfusion (Option.some.inj h), by decide⟩

theorem witness_WriteByteTransaction :
    (active false .ssStart).Inv ∧ (active false .ssStart).inputs = [] ∧
    ({ active false .ssStart with device := .oracle [.ack, .ack, .ack] [] 0 } : State).device =
      .oracle (.ack :: .ack :: .ack :: []) [] 0 := ⟨inv_start false, rfl, rfl⟩

theorem witness_ReadByteTransaction :
    (active true .ssStart).Inv ∧ (active true .ssStart).inputs = [] ∧
    ({ active true .ssStart with device := .oracle [.ack, .ack, .ack] [.data 0xAB] 0 } : State).device =
      .oracle (.ack :: .ack :: .ack :: []) (.data 0xAB :: []) 0 := ⟨inv_start true, rfl, rfl⟩

/-- A request of 256 bytes accepted in each direction. -/
theorem witness_EveryTransferEnds :
    let s : State := { idle with count := 256 }
    s.Inv ∧ s.inputs = [] ∧ s.sbusy = false ∧
    (stateOf (exec .xferW s)).map State.sbusy = some true ∧ (stateOf (exec .xferR s)).map State.sbusy = some true :=
  ⟨inv_of (by decide) (by decide) rfl (by decide) (by decide) rfl rfl, rfl, rfl, by decide, by decide⟩

/-- The reference slave at the address SLAVE holds, a request that ends at cell 0xFF, and a second buffer that ends at
the top of system memory. -/
theorem witness_RoundTrip :
    let r := RefSlave.initial 0x50 [] 0
    let s : State := { idle with addr := 0xFE, count := 2, bufptr := 0x0200, device := .reference r }
    s.Inv ∧ s.inputs = [] ∧ r.devAddr = s.slave ∧ s.sbusy = false ∧
    (stateOf (exec .xferW s)).map State.sbusy = some true ∧ (0xFFFE : Word).toNat + s.count.toNat ≤ 65536 :=
  ⟨⟨inv_idle.bus, inv_idle.busy, inv_idle.seq, by decide, inv_idle.enabled, inv_idle.memory, rfl⟩, rfl, rfl, rfl,
    by decide, by decide⟩

theorem witness_ReadsAreIdempotent :
    let r := RefSlave.initial 0x50 [(0xFF, 0x22)] 0
    let s : State := { idle with addr := 0xFE, count := 2, bufptr := 0x0200, device := .reference r }
    s.Inv ∧ s.inputs = [] ∧ r.devAddr = s.slave ∧ s.sbusy = false ∧
    (stateOf (exec .xferR s)).map State.sbusy = some true ∧ (0xFFFE : Word).toNat + s.count.toNat ≤ 65536 :=
  ⟨⟨inv_idle.bus, inv_idle.busy, inv_idle.seq, by decide, inv_idle.enabled, inv_idle.memory, by decide⟩, rfl, rfl, rfl,
    by decide, by decide⟩

/-- A poll of STATUS and a write to the byte just past the buffer, then an engine step, all while the transfer is
active; the third step is taken from a state still active. -/
theorem witness_HostStepsDoNotDisturbATransfer :
    let s : State := { active false .ssStart with
      inputs := [{ after := 0, op := rd16 .status }, { after := 0, op := .memWrite 0x0202 0x99 }] }
    s.Inv ∧ s.HostSparesBuffer ∧ (runState 3 s).map State.history = some [.start] ∧
    (∀ j u, j < 3 → runState j s = some u → u.sbusy = true) := by
  refine ⟨?_, ?_, by decide, ?_⟩
  · exact inv_of (by decide) (by decide) ⟨rfl, rfl⟩ (by decide) (by decide) rfl rfl
  · intro i hi
    rcases List.mem_cons.mp hi with rfl | hi
    · trivial
    · rw [List.mem_singleton.mp hi]
      exact .inr (by decide)
  · intro j u hj hu
    have h := congrArg (Option.map State.sbusy) hu
    interval_cases j <;> exact (Option.some.inj h).symm

/-- The address of the reference slave in a control byte, cells in canonical form, and a state that holds one. -/
theorem witness_ReferenceSlaveInitially :
    (0xA1 : Byte).extractLsb' 1 7 = 0x50 ∧ Memory.wf 256 [(0xFF, 0x22)] = true ∧
    ({ idle with device := Device.initialReference 0x50 [(0xFF, 0x22)] 0x07 } : State).device =
      .reference ⟨0x50, [(0xFF, 0x22)], 0x07, .off, false⟩ := by decide

/-- The reference slave in each of its modes, addressed and not addressed. -/
theorem witness_ReferenceSlaveAnswers :
    let r : RefSlave := { devAddr := 0x50, cells := [(0xFF, 0x22)], ptr := 0xFF, mode := .off, ctl := true }
    (r.ctl = true ∧ (0xA1 : Byte).extractLsb' 1 7 = r.devAddr) ∧ (0xA2 : Byte).extractLsb' 1 7 ≠ r.devAddr ∧
    ({ r with ctl := false, mode := .wantAddr } : RefSlave).mode = .wantAddr ∧ r.cells.wf 256 = true ∧
    ({ r with ctl := false, mode := .readData } : RefSlave).answerRx.1 = .data 0x22 ∧ r.answerRx.1 = .data 0xFF := by
  decide

end Sys2Proof.Tests
end

section
/-! Proofs of the scope statements (00_scope R10): no command stops the machine, a busy engine is enabled, and under
the invariant of 10_state R41 a step is stuck only at rest and refused only for an undefined register access. -/

namespace Sys2Proof.Machine

variable {s : State} {a : Agent}

/-! What answers a next state in every state: the commands and the host's register writes. -/

theorem exists_next_performUnless (s : State) (e : Option ErrCode) (act : State → State) :
    ∃ t, s.performUnless e act = .next t := by
  cases e with
  | none => exact ⟨_, performUnless_none rfl⟩
  | some c => exact ⟨_, performUnless_some rfl⟩

theorem exists_next_exec (i : Instr) (s : State) : ∃ t, exec i s = .next t := by
  cases i with
  | nop => exact ⟨s, rfl⟩
  | startW | startR | sendAddr | sendData | recvAck | recvNack | stop | xferW | xferR =>
    simp only [exec, execStartW, execStartR, execSendAddr, execSendData, execRecvAck, execRecvNack, execStop, execXferW,
      execXferR]
    exact exists_next_performUnless s _ _

theorem exists_next_writeCmd (v : Word) (s : State) : ∃ t, writeCmd v s = .next t := by
  unfold writeCmd
  split
  · exact exists_next_exec _ s
  · exact ⟨_, rfl⟩

theorem exists_next_writeReg (r : Reg) (v : Word) (s : State) : ∃ t, writeReg r v s = .next t := by
  cases r with
  | cmd => exact exists_next_writeCmd v s
  | ctrl | status | addr | count | completed | bufptr | txdata | rxdata | slave | reserved => exact ⟨_, rfl⟩

/-- An undefined access to register space (20_memory R61): not 16 bits wide, or not at an even offset up to 0x1E. -/
theorem not_aligned_of_accessedReg_eq_none {w : AccessWidth} {o : Nat} (h : accessedReg w o = none) :
    ¬(w = .w16 ∧ o % 2 = 0 ∧ o ≤ 0x1E) := by
  rintro ⟨rfl, heven, hle⟩
  have assigned : ∀ k < 0x1F, k % 2 = 0 → regAt k ≠ none := by decide
  exact assigned o (Nat.lt_succ_of_le hle) heven h

/-- A host step gives a next state, or is refused as an undefined access to register space (20_memory R61). -/
theorem hostStep_next_or_refused (op : HostOp) (s : State) :
    (∃ t, hostStep op s = .next t) ∨
    (hostStep op s = .refused .badRegisterAccess ∧ ∃ (w : AccessWidth) (o : Nat),
      ¬(w = .w16 ∧ o % 2 = 0 ∧ o ≤ 0x1E) ∧ (op = .read w o ∨ ∃ v, op = .write w o v)) := by
  cases op with
  | read w o =>
    cases hr : accessedReg w o with
    | some r => exact .inl ⟨{ s with hostData := s.readReg r }, by simp only [hostStep, hr]⟩
    | none => exact .inr ⟨by simp only [hostStep, hr], w, o, not_aligned_of_accessedReg_eq_none hr, .inl rfl⟩
  | write w o v =>
    cases hr : accessedReg w o with
    | some r => exact .inl (by simpa only [hostStep, hr] using exists_next_writeReg r v s)
    | none => exact .inr ⟨by simp only [hostStep, hr], w, o, not_aligned_of_accessedReg_eq_none hr, .inr ⟨v, rfl⟩⟩
  | memRead _ | memWrite _ _ | reset _ => exact .inl ⟨_, rfl⟩

/-! What each engine agent needs to give a next state. -/

theorem exists_next_busStep (h : s.bstate ≠ .idle) : ∃ t, busStep s = .next t := by
  unfold busStep
  cases hb : s.bstate with
  | idle => exact absurd hb h
  | startPending | addressing | transmittingByte | receivingByte | stopPending => exact ⟨_, rfl⟩

theorem exists_next_seqStep (h : s.sstep ≠ .ssIdle) : ∃ t, seqStep s = .next t := by
  unfold seqStep
  cases hs : s.sstep with
  | ssIdle => exact absurd hs h
  | ssStart | ssAddr | ssRestart | ssRdata | ssStop | ssNext | ssAbort => exact ⟨_, rfl⟩

theorem exists_next_ceStep (h : s.ceAddress < Config.sysMemSize) : ∃ t, ceStep s = .next t := by
  unfold ceStep
  split
  · exact ⟨_, if_pos h⟩
  · exact ⟨_, if_pos h⟩

/-! What the invariant says of the agents. -/

/-- The host's coming steps do not enter into the invariant. -/
theorem State.Inv.withInputs (h : s.Inv) (ins : List Input) : ({ s with inputs := ins } : State).Inv :=
  ⟨h.bus, h.busy, h.seq, h.request, h.enabled, h.memory, h.slave⟩

theorem State.Inv.sstep_ne_ssIdle (h : s.Inv) (hb : s.sbusy = true) : s.sstep ≠ .ssIdle := by
  intro hs
  simp [h.busy.mpr hs] at hb

/-- The copy engine is armed only between an address or receive phase's issue and the byte's stop
(41_block_transfer R166, R168). -/
theorem State.Inv.sstep_of_ceArmed (h : s.Inv) (hc : s.ceArmed = true) : s.sstep = .ssStop := by
  have hseq := h.seq
  unfold State.SequencerConsistent at hseq
  cases hs : s.sstep with
  | ssStop => rfl
  | ssIdle | ssStart | ssAddr | ssRestart | ssRdata | ssNext | ssAbort => simp [hs, hc] at hseq

theorem State.Inv.sbusy_of_ceArmed (h : s.Inv) (hc : s.ceArmed = true) : s.sbusy = true := by
  by_contra hb
  have hidle := h.busy.mp (Bool.eq_false_of_not_eq_true hb)
  simp [h.sstep_of_ceArmed hc] at hidle

/-- An armed copy engine waits for no more than the phase in flight: its trigger's phase is the one issued
(41_block_transfer R172). -/
theorem State.Inv.ceTrigger_of_ceArmed (h : s.Inv) (hc : s.ceArmed = true) :
    (s.sdir = false ∧ s.bstate = .addressing) ∨ (s.sdir = true ∧ s.bstate = .receivingByte) := by
  have hseq := h.seq
  simp only [State.SequencerConsistent, h.sstep_of_ceArmed hc] at hseq
  obtain ⟨-, hwrite, hread⟩ := hseq
  cases hd : s.sdir with
  | false =>
    rcases hwrite hd with ⟨-, haddr⟩ | ⟨hunarmed, -⟩
    · exact .inl ⟨rfl, haddr⟩
    · simp [hc] at hunarmed
  | true => exact .inr ⟨rfl, (hread hd).1⟩

/-- The copy engine's address is inside the buffer of the active request (20_memory R66). -/
theorem State.Inv.ceAddress_lt (h : s.Inv) (hb : s.sbusy = true) : s.ceAddress < Config.sysMemSize := by
  obtain ⟨hcompleted, -, -, hbuffer⟩ := h.request hb
  unfold State.ceAddress
  omega

theorem State.Inv.exists_enabledAgent (h : s.Inv) (hbusy : s.sbusy = true ∨ s.ready = false) :
    ∃ a, s.enabledAgent = some a := by
  cases hr : s.ready with
  | false => exact ⟨.bus, enabledAgent_eq_bus_iff.mpr hr⟩
  | true =>
    cases hc : s.ceArmed with
    | true => exact ⟨.ce, enabledAgent_eq_ce_iff.mpr ⟨hc, hr, h.ceTrigger_of_ceArmed hc⟩⟩
    | false =>
      have hb : s.sbusy = true := hbusy.resolve_right (by simp [hr])
      exact ⟨.seq, enabledAgent_eq_seq_iff.mpr ⟨hb, hr, hc⟩⟩

/-- An enabled engine agent always has its action: the faults of an engine step are in states that 10_state R41 and
20_memory R66 exclude. -/
theorem State.Inv.exists_next_agentStep (h : s.Inv) (ha : s.enabledAgent = some a) :
    ∃ t, agentStep a s = .next t := by
  cases a with
  | bus =>
    obtain ⟨hphase, -⟩ := h.bus
    exact exists_next_busStep (hphase (enabledAgent_eq_bus_iff.mp ha))
  | seq =>
    obtain ⟨hb, -, -⟩ := enabledAgent_eq_seq_iff.mp ha
    exact exists_next_seqStep (h.sstep_ne_ssIdle hb)
  | ce =>
    obtain ⟨hc, -, -⟩ := enabledAgent_eq_ce_iff.mp ha
    exact exists_next_ceStep (h.ceAddress_lt (h.sbusy_of_ceArmed hc))

/-- Under the invariant a step gives a next state, is refused as the host's undefined register access, or is stuck
with neither a host step nor an enabled agent (00_scope R10). -/
theorem State.Inv.step_next_or_refused_or_stuck (h : s.Inv) :
    (∃ t, step s = .next t) ∨
    (step s = .refused .badRegisterAccess ∧ ∃ (w : AccessWidth) (o : Nat),
      ¬(w = .w16 ∧ o % 2 = 0 ∧ o ≤ 0x1E) ∧
      (s.dueOp = some (.read w o) ∨ ∃ v, s.dueOp = some (.write w o v))) ∨
    (step s = .fault .stuck ∧ s.inputs = [] ∧ s.enabledAgent = none) := by
  rcases step_cases (s := s) rfl with ⟨i, rest, -, hdue, hstep⟩ | ⟨a, ins, ha, -, -, hstep⟩ | ⟨hi, ha, hstep⟩
  · rw [← hstep, hdue]
    rcases hostStep_next_or_refused i.op { s with inputs := rest } with hnext | ⟨href, w, o, hbad, hop⟩
    · exact .inl hnext
    · exact .inr (.inl ⟨href, w, o, hbad, by simpa only [Option.some.injEq] using hop⟩)
  · rw [← hstep]
    exact .inl ((h.withInputs ins).exists_next_agentStep ha)
  · exact .inr (.inr ⟨hstep, hi, ha⟩)

/-- Settles O15: every command is NOP or is performed unless its first failing check raises an error, and both
answers are next states. -/
theorem commandsNeverStop : Obligations.CommandsNeverStop :=
  exists_next_exec

/-- Settles O51: with no phase in flight, an active transfer has its copy engine armed, with its trigger's phase the
one just completed, or has the sequencer's turn. -/
theorem aBusyEngineIsEnabled : Obligations.ABusyEngineIsEnabled :=
  fun _ h => h.exists_enabledAgent

/-- Settles O50, from the three outcomes of a step under the invariant; a stuck machine is at rest because a busy
engine is enabled. -/
theorem theEngineNeverFaults : Obligations.TheEngineNeverFaults := by
  intro s h
  rcases h.step_next_or_refused_or_stuck with ⟨t, hnext⟩ | ⟨href, hop⟩ | ⟨hstuck, hi, ha⟩
  · simp [hnext]
  · refine ⟨by simp [href], fun r hr => ?_⟩
    rw [href] at hr
    cases hr
    exact ⟨rfl, hop⟩
  · have hrest : ¬(s.sbusy = true ∨ s.ready = false) := by
      intro hbusy
      obtain ⟨a, hsome⟩ := h.exists_enabledAgent hbusy
      simp [ha] at hsome
    refine ⟨fun f hf => ?_, by simp [hstuck]⟩
    rw [hstuck] at hf
    cases hf
    simp only [not_or, Bool.not_eq_true, Bool.not_eq_false] at hrest
    obtain ⟨hidle, hready⟩ := hrest
    exact ⟨rfl, hi, ha, hready, hidle⟩

end Sys2Proof.Machine
end

section
/-! Proofs about the invariant of 10_state R41: every step keeps it (first the bus part of it under each phase's issue
and completion, then a step of each engine agent, a command, and a step of the host), it holds after reset, and it gives
the eight items of R41. -/

namespace Sys2Proof.Machine

variable {s t : State}

/-! What a phase's issue leaves the bus in (40_bus_primitive R113). -/

/-- Bit 0 of a control byte is the direction (20_memory R68). -/
@[simp] theorem controlByte_getElem_zero (sl : BitVec 7) (rw : Bool) : (controlByte sl rw)[0] = rw := by
  rw [← BitVec.getLsbD_eq_getElem, controlByte, BitVec.getLsbD_append]
  simp

theorem busConsistent_issueStart (s : State) (rw : Bool) : (s.issueStart rw).BusConsistent := by
  simp [State.BusConsistent]

theorem State.BusConsistent.issueTx (h : s.BusConsistent) (hheld : s.held = true) (hmode : s.rxmode = false) {b : Byte}
    {st : BusState} (hst : st = .addressing ∨ st = .transmittingByte) : (s.issueTx b st).BusConsistent := by
  obtain ⟨-, -, -, howed, -⟩ := h
  rcases hst with rfl | rfl
  · simpa [State.BusConsistent, hheld, hmode] using howed
  · simpa [State.BusConsistent, hheld, hmode] using howed

theorem busConsistent_issueRx (hheld : s.held = true) (hmode : s.rxmode = true) (howed : s.mrecv = true) (m : Bool) :
    (s.issueRx m).BusConsistent := by
  simp [State.BusConsistent, hheld, hmode, howed]

theorem State.BusConsistent.issueStop (h : s.BusConsistent) (hheld : s.held = true) : s.issueStop.BusConsistent := by
  obtain ⟨-, -, -, howed, -⟩ := h
  simpa [State.BusConsistent, hheld] using howed

/-! What a completed phase leaves the bus in (40_bus_primitive R122 to R124, R126). -/

/-- A phase in flight belongs to an open transaction. -/
theorem State.BusConsistent.held_of_not_ready (h : s.BusConsistent) (hr : s.ready = false) : s.held = true := by
  obtain ⟨-, hfree, -⟩ := h
  by_contra hheld
  obtain ⟨-, hready, -⟩ := hfree (Bool.eq_false_of_not_eq_true hheld)
  simp [hr] at hready

/-- A completed phase other than the stop; a byte owed may have been received. -/
theorem State.BusConsistent.completed (h : s.BusConsistent) (hheld : s.held = true) (hst : s.bstate ≠ .stopPending)
    {owed : Bool} (howes : owed = s.mrecv ∨ owed = false ∧ s.bstate = .receivingByte) :
    ({ s with mrecv := owed, ready := true } : State).BusConsistent := by
  obtain ⟨-, -, hidle, howed, -, hstart, -, haddr, hdata, hrecv, -⟩ := h
  rcases howes with rfl | ⟨rfl, hb⟩
  · exact ⟨by simp, by simp [hheld], hidle, howed, fun hb => absurd hb hst, hstart, by simp, haddr, hdata, hrecv,
      by simp⟩
  · simp [State.BusConsistent, hheld, hb, hrecv hb]

theorem busConsistent_completeStop (s : State) : s.completeStop.BusConsistent := by
  simp [State.BusConsistent, State.completeStop]

/-! A step of BUS. -/

/-- The abort of a failed phase keeps the invariant, the slave's answer and the phase's event taken
(40_bus_primitive R126). -/
theorem State.Inv.fail (h : s.Inv) (hheld : s.held = true) {d : Device} (hd : d.Wf) (es : List BusEvent) :
    ({ s with device := d, history := es } : State).fail.Inv where
  bus := h.bus.issueStop hheld
  busy := by
    cases hb : s.sbusy with
    | false => simpa [hb] using h.busy
    | true => simp
  seq := by
    cases hb : s.sbusy with
    | false => simp [State.SequencerConsistent, h.busy.mp hb]
    | true => simp [State.SequencerConsistent]
  request := h.request
  enabled := h.enabled
  memory := h.memory
  slave := hd

/-- A completed phase other than the stop keeps what SSTEP says: only SS_STOP waits for one, and for the receive phase
it asks that no byte be owed any more. -/
theorem State.SequencerConsistent.completed (h : s.SequencerConsistent) (hheld : s.held = true)
    (hr : s.ready = false) (hst : s.bstate ≠ .stopPending) {owed : Bool}
    (howes : s.bstate = .receivingByte → s.rxack = false → owed = false) :
    ({ s with mrecv := owed, ready := true } : State).SequencerConsistent := by
  unfold State.SequencerConsistent at h ⊢
  cases hs : s.sstep with
  | ssIdle | ssStart | ssAddr | ssRestart | ssRdata => simpa only [hs] using h
  | ssNext | ssAbort =>
    simp only [hs] at h
    obtain ⟨-, -, hstop⟩ := h
    exact absurd (hstop hr) hst
  | ssStop =>
    simp only [hs] at h ⊢
    obtain ⟨-, hwrite, hread⟩ := h
    refine ⟨hheld, hwrite, fun hd => ?_⟩
    obtain ⟨hrecv, hack, -, -⟩ := hread hd
    exact ⟨hrecv, hack, by simp, fun _ => howes hrecv hack⟩


theorem State.Inv.finishTx (h : s.Inv) (hr : s.ready = false)
    (hst : s.bstate = .startPending ∨ s.bstate = .addressing ∨ s.bstate = .transmittingByte) : s.finishTx.Inv := by
  have hheld := h.bus.held_of_not_ready hr
  have hdevice := Device.wf_answerTx s.device s.shift h.slave
  have hnotStop : s.bstate ≠ .stopPending := by rcases hst with hb | hb | hb <;> simp [hb]
  have hnotRecv : s.bstate ≠ .receivingByte := by rcases hst with hb | hb | hb <;> simp [hb]
  rcases finishTx_cases s with ⟨ht, -⟩ | ⟨e, -, ht, -⟩
  · rw [ht]
    exact ⟨h.bus.completed hheld hnotStop (.inl rfl), h.busy,
      h.seq.completed hheld hr hnotStop fun hb => absurd hb hnotRecv, h.request, h.enabled, h.memory,
      Device.wf_onEvent _ _ hdevice⟩
  · rw [ht]
    exact h.fail hheld (Device.wf_onEvent _ e hdevice) _

theorem State.Inv.finishRx (h : s.Inv) (hr : s.ready = false) (hst : s.bstate = .receivingByte) : s.finishRx.Inv := by
  have hheld := h.bus.held_of_not_ready hr
  have hdevice := Device.wf_answerRx s.device h.slave
  have hnotStop : s.bstate ≠ .stopPending := by simp [hst]
  rcases finishRx_cases s with ⟨v, -, ht⟩ | ⟨-, ht⟩
  · rw [ht]
    refine ⟨h.bus.completed hheld hnotStop ?_, h.busy, h.seq.completed hheld hr hnotStop fun _ hack => if_pos hack,
      h.request, h.enabled, h.memory, Device.wf_onEvent _ _ hdevice⟩
    cases hack : s.rxack with
    | false => exact .inr ⟨rfl, hst⟩
    | true => exact .inl rfl
  · rw [ht]
    exact h.fail hheld (Device.wf_onEvent _ _ hdevice) _

/-- SSTEP is at the stop's outcome, or at rest, when the stop phase is in flight. -/
theorem State.Inv.sstep_of_stopPending (h : s.Inv) (hr : s.ready = false) (hst : s.bstate = .stopPending) :
    s.sstep = .ssIdle ∨ s.sstep = .ssNext ∨ s.sstep = .ssAbort := by
  have hheld := h.bus.held_of_not_ready hr
  have hseq := h.seq
  unfold State.SequencerConsistent at hseq
  cases hs : s.sstep with
  | ssIdle | ssNext | ssAbort => simp
  | ssStart | ssAddr | ssRestart | ssRdata => simp [hs, hst, hheld] at hseq
  | ssStop => cases hd : s.sdir <;> simp [hs, hst, hd] at hseq

theorem State.Inv.completeStop (h : s.Inv) (hr : s.ready = false) (hst : s.bstate = .stopPending) :
    s.completeStop.Inv := by
  have hs := h.sstep_of_stopPending hr hst
  have hc : s.ceArmed = false := by
    by_contra hc
    simp [h.sstep_of_ceArmed (Bool.eq_true_of_not_eq_false hc)] at hs
  refine ⟨busConsistent_completeStop s, h.busy, ?_, h.request,
    fun _ => h.enabled (.inr (h.bus.held_of_not_ready hr)), h.memory, Device.wf_onEvent _ _ h.slave⟩
  rcases hs with hs | hs | hs <;> simp [State.SequencerConsistent, State.completeStop, hs, hc]

theorem State.Inv.of_busStep (h : s.Inv) (hr : s.ready = false) (ht : busStep s = .next t) : t.Inv := by
  rcases busStep_cases ht with ⟨hst, rfl⟩ | ⟨hst, rfl⟩ | ⟨hst, rfl⟩
  · exact h.finishTx hr hst
  · exact h.finishRx hr hst
  · exact h.completeStop hr hst

/-! A step of SEQ (41_block_transfer R165 to R171). -/

theorem State.Inv.seqStart (h : s.Inv) (hbusy : s.sbusy = true) (hs : s.sstep = .ssStart) : s.seqStart.Inv := by
  have hseq := h.seq
  simp only [State.SequencerConsistent, hs] at hseq
  obtain ⟨hc, -⟩ := hseq
  exact ⟨busConsistent_issueStart s false, by simp [State.seqStart, hbusy],
    by simp [State.SequencerConsistent, State.seqStart, hc], h.request, fun _ => h.enabled (.inl hbusy), h.memory,
    Device.wf_onEvent _ _ h.slave⟩

theorem State.Inv.seqAddr (h : s.Inv) (hbusy : s.sbusy = true) (hs : s.sstep = .ssAddr) : s.seqAddr.Inv := by
  have hseq := h.seq
  simp only [State.SequencerConsistent, hs] at hseq
  obtain ⟨hc, hheld, -, hmode⟩ := hseq
  have hbus := h.bus.issueTx hheld hmode (b := s.addr) (.inl rfl)
  unfold State.seqAddr
  cases hd : s.sdir with
  | false =>
    exact ⟨hbus, by simp [hbusy], by simp [State.SequencerConsistent, hheld, hd], h.request, h.enabled, h.memory,
      h.slave⟩
  | true =>
    exact ⟨hbus, by simp [hbusy], by simp [State.SequencerConsistent, hheld, hd, hc], h.request, h.enabled, h.memory,
      h.slave⟩

theorem State.Inv.seqRestart (h : s.Inv) (hbusy : s.sbusy = true) (hs : s.sstep = .ssRestart) : s.seqRestart.Inv := by
  have hseq := h.seq
  simp only [State.SequencerConsistent, hs] at hseq
  obtain ⟨hc, -, -, hd⟩ := hseq
  exact ⟨busConsistent_issueStart s true, by simp [State.seqRestart, hbusy],
    by simp [State.SequencerConsistent, State.seqRestart, hc, hd], h.request, fun _ => h.enabled (.inl hbusy), h.memory,
    Device.wf_onEvent _ _ h.slave⟩

theorem State.Inv.seqRdata (h : s.Inv) (hbusy : s.sbusy = true) (hs : s.sstep = .ssRdata) : s.seqRdata.Inv := by
  have hseq := h.seq
  simp only [State.SequencerConsistent, hs] at hseq
  obtain ⟨-, hheld, hst, hmode, hd⟩ := hseq
  obtain ⟨-, -, -, -, -, hstart, -⟩ := h.bus
  have howed : s.mrecv = true := (hstart hst).trans hmode
  exact ⟨busConsistent_issueRx hheld hmode howed false, by simp [State.seqRdata, hbusy],
    by simp [State.SequencerConsistent, State.seqRdata, hheld, hd], h.request, h.enabled, h.memory, h.slave⟩

theorem State.Inv.seqStop (h : s.Inv) (hbusy : s.sbusy = true) (hc : s.ceArmed = false) (hs : s.sstep = .ssStop) :
    s.seqStop.Inv := by
  have hseq := h.seq
  simp only [State.SequencerConsistent, hs] at hseq
  obtain ⟨hheld, -, -⟩ := hseq
  exact ⟨h.bus.issueStop hheld, by simp [State.seqStop, hbusy], by simp [State.SequencerConsistent, State.seqStop, hc],
    h.request, h.enabled, h.memory, h.slave⟩

/-- One byte counted, and more to come: the request's remaining bytes are still inside their spaces. -/
theorem State.RequestConsistent.next (h : s.RequestConsistent) (hbusy : s.sbusy = true)
    (hlt : (s.completed + 1).toNat < s.count.toNat) :
    ({ s with completed := s.completed + 1, addr := s.addr + 1 } : State).RequestConsistent := by
  intro _
  obtain ⟨hcount, hle, hcells, hbuffer⟩ := h hbusy
  simp only [Config.eepromSize] at hcells
  have hcompleted : (s.completed + 1).toNat = s.completed.toNat + 1 := by bv_omega
  have haddr : (s.addr + 1).toNat = s.addr.toNat + 1 := by bv_omega
  simp only [hcompleted, haddr, Config.eepromSize] at hlt ⊢
  exact ⟨hlt, by omega, by omega, hbuffer⟩

theorem State.Inv.seqNext (h : s.Inv) (hbusy : s.sbusy = true) (hr : s.ready = true) (hs : s.sstep = .ssNext) :
    s.seqNext.Inv := by
  have hseq := h.seq
  simp only [State.SequencerConsistent, hs] at hseq
  obtain ⟨hc, hfree, -⟩ := hseq
  unfold State.seqNext
  dsimp only
  split
  case isTrue hlt =>
    exact ⟨h.bus, by simp [hbusy], by simp [State.SequencerConsistent, hc, hfree hr], h.request.next hbusy hlt,
      h.enabled, h.memory, h.slave⟩
  case isFalse =>
    exact ⟨h.bus, by simp, by simp [State.SequencerConsistent, hc], by simp [State.RequestConsistent],
      by simp [hfree hr], h.memory, h.slave⟩

theorem State.Inv.seqAbort (h : s.Inv) (hr : s.ready = true) (hs : s.sstep = .ssAbort) : s.seqAbort.Inv := by
  have hseq := h.seq
  simp only [State.SequencerConsistent, hs] at hseq
  obtain ⟨hc, hfree, -⟩ := hseq
  exact ⟨h.bus, by simp [State.seqAbort], by simp [State.SequencerConsistent, State.seqAbort, hc],
    by simp [State.RequestConsistent, State.seqAbort], by simp [State.seqAbort, hfree hr], h.memory, h.slave⟩

theorem State.Inv.of_seqStep (h : s.Inv) (hbusy : s.sbusy = true) (hr : s.ready = true) (hc : s.ceArmed = false)
    (ht : seqStep s = .next t) : t.Inv := by
  rcases seqStep_cases ht with ⟨hs, rfl⟩ | ⟨hs, rfl⟩ | ⟨hs, rfl⟩ | ⟨hs, rfl⟩ | ⟨hs, rfl⟩ | ⟨hs, rfl⟩ | ⟨hs, rfl⟩
  · exact h.seqStart hbusy hs
  · exact h.seqAddr hbusy hs
  · exact h.seqRestart hbusy hs
  · exact h.seqRdata hbusy hs
  · exact h.seqStop hbusy hc hs
  · exact h.seqNext hbusy hr hs
  · exact h.seqAbort hr hs

/-! A step of CE (41_block_transfer R173, R174). -/

theorem State.Inv.of_ceStep (h : s.Inv) (hc : s.ceArmed = true) (hr : s.ready = true) (ht : ceStep s = .next t) :
    t.Inv := by
  have hs := h.sstep_of_ceArmed hc
  have hbusy := h.sbusy_of_ceArmed hc
  have hseq := h.seq
  simp only [State.SequencerConsistent, hs] at hseq
  obtain ⟨hheld, -, hread⟩ := hseq
  obtain ⟨haddress, ⟨hd, rfl⟩ | ⟨hd, rfl⟩⟩ := ceStep_cases ht
  · have hst : s.bstate = .addressing := by simpa [hd] using h.ceTrigger_of_ceArmed hc
    obtain ⟨-, -, -, -, -, -, -, haddr, -⟩ := h.bus
    exact ⟨h.bus.issueTx hheld (haddr hst) (.inr rfl), h.busy, by simp [State.SequencerConsistent, hs, hheld, hd],
      h.request, h.enabled, h.memory, h.slave⟩
  · obtain ⟨hst, hack, -, howed⟩ := hread hd
    exact ⟨h.bus, h.busy, by simp [State.SequencerConsistent, hs, hheld, hd, hst, hack, hr, howed hr], h.request,
      h.enabled, Memory.wf_write _ _ _ _ haddress h.memory, h.slave⟩

/-- A step of the enabled engine agent keeps the invariant. -/
theorem State.Inv.of_agentStep {a : Agent} (h : s.Inv) (ha : s.enabledAgent = some a) (ht : agentStep a s = .next t) :
    t.Inv := by
  cases a with
  | bus => exact h.of_busStep (enabledAgent_eq_bus_iff.mp ha) ht
  | seq =>
    obtain ⟨hbusy, hr, hc⟩ := enabledAgent_eq_seq_iff.mp ha
    exact h.of_seqStep hbusy hr hc ht
  | ce =>
    obtain ⟨hc, hr, -⟩ := enabledAgent_eq_ce_iff.mp ha
    exact h.of_ceStep hc hr ht

/-! A command (30_encoding R97), and the host's other steps. -/

/-- The error latch is no part of the invariant. -/
theorem State.Inv.raise (h : s.Inv) (e : ErrCode) : (s.raise e).Inv :=
  ⟨h.bus, h.busy, h.seq, h.request, h.enabled, h.memory, h.slave⟩

/-- The copy engine is at rest with the sequencer. -/
theorem State.Inv.ceArmed_of_idle (h : s.Inv) (hidle : s.sbusy = false) : s.ceArmed = false := by
  simpa [State.SequencerConsistent, h.busy.mp hidle] using h.seq

/-- What a primitive command is accepted with: an enabled block, and the sequencer and the copy engine at rest. What
it does to the bus is then all the invariant asks about. -/
theorem State.Inv.of_busConsistent (h : s.Inv) (hen : s.en = true) (hidle : s.sbusy = false) (hbus : t.BusConsistent)
    (hframe : t = { s with
      bstate := t.bstate, held := t.held, rxmode := t.rxmode, mrecv := t.mrecv, ready := t.ready, shift := t.shift
      rxack := t.rxack, history := t.history, device := t.device }) (hslave : t.device.Wf) : t.Inv := by
  have hs := h.busy.mp hidle
  have hc := h.ceArmed_of_idle hidle
  have hts : t.sstep = .ssIdle := (congrArg State.sstep hframe).trans hs
  have htb : t.sbusy = false := (congrArg State.sbusy hframe).trans hidle
  have htc : t.ceArmed = false := (congrArg State.ceArmed hframe).trans hc
  have hte : t.en = true := (congrArg State.en hframe).trans hen
  have htm : t.mem = s.mem := (congrArg State.mem hframe).trans rfl
  exact ⟨hbus, by simp [hts, htb], by simp [State.SequencerConsistent, hts, htc],
    by simp [State.RequestConsistent, htb], fun _ => hte, htm ▸ h.memory, hslave⟩

theorem State.Inv.accept (h : s.Inv) (hen : s.en = true) (hidle : s.sbusy = false) (hfree : s.held = false)
    (hrange : s.requestOutOfRange = false) (dir : Bool) : (s.accept dir).Inv := by
  have hs := h.busy.mp hidle
  have hc := h.ceArmed_of_idle hidle
  obtain ⟨hcells, hbuffer⟩ := requestOutOfRange_eq_false_iff.mp hrange
  unfold State.accept
  split
  case isTrue =>
    exact ⟨h.bus, h.busy, by simp [State.SequencerConsistent, hs, hc], by simp [State.RequestConsistent, hidle],
      h.enabled, h.memory, h.slave⟩
  case isFalse hcount =>
    exact ⟨h.bus, by simp, by simp [State.SequencerConsistent, hc, hfree],
      fun _ => ⟨Nat.pos_of_ne_zero hcount, Nat.zero_le _, hcells, hbuffer⟩, fun _ => hen, h.memory, h.slave⟩

theorem State.Inv.of_exec {i : Instr} (h : s.Inv) (ht : exec i s = .next t) : t.Inv := by
  rcases exec_cases ht with ⟨-, rfl⟩ | ⟨-, c, -, -, rfl⟩ | ⟨hen, hidle, -, hdone⟩
  · exact h
  · exact h.raise c
  · rcases hdone with ⟨-, -, rfl⟩ | ⟨-, -, rfl⟩ | ⟨-, hl, rfl⟩ | ⟨-, hl, rfl⟩ | ⟨-, hl, rfl⟩ | ⟨-, hl, rfl⟩ |
      ⟨-, hl, rfl⟩ | ⟨-, hfree, hrange, rfl⟩ | ⟨-, hfree, hrange, rfl⟩
    · exact h.of_busConsistent hen hidle (busConsistent_issueStart s false) rfl (Device.wf_onEvent _ _ h.slave)
    · exact h.of_busConsistent hen hidle (busConsistent_issueStart s true) rfl (Device.wf_onEvent _ _ h.slave)
    · obtain ⟨hheld, hmode⟩ := legalSend_eq_true_iff.mp hl
      exact h.of_busConsistent hen hidle (h.bus.issueTx hheld hmode (.inl rfl)) rfl h.slave
    · obtain ⟨hheld, hmode⟩ := legalSend_eq_true_iff.mp hl
      exact h.of_busConsistent hen hidle (h.bus.issueTx hheld hmode (.inr rfl)) rfl h.slave
    · obtain ⟨hheld, hmode, howed⟩ := legalRecv_eq_true_iff.mp hl
      exact h.of_busConsistent hen hidle (busConsistent_issueRx hheld hmode howed true) rfl h.slave
    · obtain ⟨hheld, hmode, howed⟩ := legalRecv_eq_true_iff.mp hl
      exact h.of_busConsistent hen hidle (busConsistent_issueRx hheld hmode howed false) rfl h.slave
    · obtain ⟨hheld, -⟩ := legalStop_eq_true_iff.mp hl
      exact h.of_busConsistent hen hidle (h.bus.issueStop hheld) rfl h.slave
    · exact h.accept hen hidle hfree hrange false
    · exact h.accept hen hidle hfree hrange true

/-- A write to CTRL leaves EN alone while the bus has an owner (10_state R22). -/
theorem State.Inv.writeCtrl (h : s.Inv) (v : Word) : (s.writeCtrl v).Inv := by
  unfold State.writeCtrl
  dsimp only
  split
  case isTrue => exact ⟨h.bus, h.busy, h.seq, h.request, h.enabled, h.memory, h.slave⟩
  case isFalse hfree =>
    refine ⟨h.bus, h.busy, h.seq, h.request, fun howner => ?_, h.memory, h.slave⟩
    by_contra hoff
    exact hfree ⟨Bool.eq_false_of_not_eq_true hoff, h.enabled howner, howner⟩

theorem State.Inv.of_writeReg {r : Reg} {v : Word} (h : s.Inv) (ht : writeReg r v s = .next t) : t.Inv := by
  rcases writeReg_cases ht with ⟨-, hcmd⟩ | ⟨-, rfl⟩ | ⟨-, rfl⟩ | ⟨-, rfl⟩ | ⟨-, rfl⟩ | ⟨-, hidle, rfl⟩ |
    ⟨-, hidle, rfl⟩ | ⟨-, hidle, rfl⟩ | ⟨-, hidle, rfl⟩ | ⟨-, hidle, -, rfl⟩
  · rcases writeCmd_cases hcmd with ⟨i, -, hexec⟩ | ⟨-, rfl⟩
    · exact h.of_exec hexec
    · exact h.raise _
  · exact h.writeCtrl v
  · exact ⟨h.bus, h.busy, h.seq, h.request, h.enabled, h.memory, h.slave⟩
  · exact h
  · exact h.raise _
  all_goals
    exact ⟨h.bus, h.busy, h.seq, by simp [State.RequestConsistent, hidle], h.enabled, h.memory, h.slave⟩

/-- The reset input gives a free bus and an idle sequencer; memory and the slave stay (70_reset R250). -/
theorem inv_resetBlock (d : ResetDraw) (hmem : s.mem.wf Config.sysMemSize = true) (hslave : s.device.Wf) :
    (s.resetBlock d).Inv :=
  ⟨by simp [State.BusConsistent, State.resetBlock], by simp [State.resetBlock],
    by simp [State.SequencerConsistent, State.resetBlock], by simp [State.RequestConsistent, State.resetBlock],
    by simp [State.resetBlock], hmem, hslave⟩

theorem State.Inv.of_hostStep {op : HostOp} (h : s.Inv) (ht : hostStep op s = .next t) : t.Inv := by
  rcases hostStep_cases ht with ⟨w, o, r, -, -, rfl⟩ | ⟨w, o, v, r, -, -, hwrite⟩ | ⟨a, -, rfl⟩ | ⟨a, b, -, rfl⟩ |
    ⟨d, -, rfl⟩
  · exact ⟨h.bus, h.busy, h.seq, h.request, h.enabled, h.memory, h.slave⟩
  · exact h.of_writeReg hwrite
  · exact ⟨h.bus, h.busy, h.seq, h.request, h.enabled, h.memory, h.slave⟩
  · exact ⟨h.bus, h.busy, h.seq, h.request, h.enabled, Memory.wf_write _ _ _ _ a.isLt h.memory, h.slave⟩
  · exact inv_resetBlock d h.memory h.slave

/-- Settles O48: the step is the host's or that of the enabled agent, and each keeps the invariant. -/
theorem everyStepKeepsTheInvariant : Obligations.EveryStepKeepsTheInvariant := by
  intro s t h hstep
  rcases step_cases hstep with ⟨i, rest, -, -, hhost⟩ | ⟨a, ins, ha, -, -, hagent⟩ | ⟨-, -, hstuck⟩
  · exact (h.withInputs rest).of_hostStep hhost
  · exact (h.withInputs ins).of_agentStep ha hagent
  · cases hstuck

/-- Settles O47: the state after reset, with any memory, slave and host steps beside it, is what a reset that draws
zeros makes of it. -/
theorem invariantAfterReset : Obligations.InvariantAfterReset :=
  ⟨inv_resetBlock (s := State.reset) ⟨0, 0, 0, 0, 0, 0, 0, false⟩ State.reset_mem_wf trivial,
    fun m d ins hmem hslave =>
      inv_resetBlock (s := { State.reset with mem := m, device := d, inputs := ins }) ⟨0, 0, 0, 0, 0, 0, 0, false⟩ hmem
        hslave⟩

/-! The items of 10_state R41 that are not parts of the invariant. -/

/-- A CMD write while a phase is in flight issues none: it does nothing or raises an error (30_encoding R97 check 5). -/
theorem writeCmd_of_not_ready {w : Word} (hr : s.ready = false) (ht : writeCmd w s = .next t) :
    t = s ∨ ∃ c, t = s.raise c := by
  rcases writeCmd_cases ht with ⟨i, -, hexec⟩ | ⟨-, rfl⟩
  · rcases exec_cases hexec with ⟨-, rfl⟩ | ⟨-, c, -, -, rfl⟩ | ⟨-, -, hready, -⟩
    · exact .inl rfl
    · exact .inr ⟨c, rfl⟩
    · simp [hr] at hready
  · exact .inr ⟨_, rfl⟩

/-- The cell addressed is the request's first, ADDR at acceptance, and COMPLETED further, inside the EEPROM. -/
theorem State.RequestConsistent.exists_addr_eq (h : s.RequestConsistent) (hbusy : s.sbusy = true) :
    ∃ a0 : Nat, s.addr.toNat = (a0 + s.completed.toNat) % 256 ∧ a0 + s.count.toNat ≤ 256 := by
  obtain ⟨-, hle, hcells, -⟩ := h hbusy
  simp only [Config.eepromSize] at hcells
  have haddr := s.addr.isLt
  exact ⟨s.addr.toNat - s.completed.toNat, by omega, by omega⟩

/-- Settles O49: items 1 to 3 and 5 are the invariant's own, item 4 comes from SSTEP, item 6 from the request, item 7
from the agents' conditions and item 8 from check 5 of 30_encoding R97. -/
theorem invariantGivesRule41 : Obligations.InvariantGivesRule41 := by
  intro s h
  obtain ⟨hphase, hfree, hidle, howed, -⟩ := h.bus
  refine ⟨⟨enabledAgent_eq_bus_iff.symm, hphase⟩, ⟨hfree, hidle⟩, howed, h.sbusy_of_ceArmed, h.busy, ?_, ?_, ?_⟩
  case refine_1 =>
    intro hbusy
    obtain ⟨hcount, -⟩ := h.request hbusy
    exact ⟨hcount, h.request.exists_addr_eq hbusy⟩
  case refine_2 =>
    refine ⟨enabledAgent_eq_bus_iff, fun ha => ?_, fun ha => ?_⟩
    · obtain ⟨hc, hr, -⟩ := enabledAgent_eq_ce_iff.mp ha
      exact ⟨hr, hc⟩
    · obtain ⟨-, hr, hc⟩ := enabledAgent_eq_seq_iff.mp ha
      exact ⟨hr, hc⟩
  case refine_3 =>
    intro hr w t ht
    rcases writeCmd_of_not_ready hr ht with rfl | ⟨c, rfl⟩
    · exact ⟨rfl, rfl, rfl⟩
    · exact ⟨rfl, rfl, rfl⟩

end Sys2Proof.Machine
end

section
/-! Proofs about what any step may change (10_state R27 to R33, R39, R43, R46): a frame for each kind of step, said
once, and from the frames the statements on the interrupt, on EN, on the registers' writers and on the history. -/

namespace Sys2Proof.Machine

variable {s t : State}

/-! What the frames speak of. -/

/-- The history of `t` is that of `s` with at most one event more (10_state R46). -/
def State.GrowsTo (s t : State) : Prop := ∃ es, t.history = s.history ++ es ∧ es.length ≤ 1

theorem growsTo_of_history_eq (h : t.history = s.history) : s.GrowsTo t := ⟨[], by simp [h], by simp⟩

theorem growsTo_of_event {e : BusEvent} (h : t.history = s.history ++ [e]) : s.GrowsTo t := ⟨[e], h, by simp⟩

/-- The interrupt enables are the same in `t`, and no flag that is 1 in `s` is 0 in `t` (60_exceptions R218). -/
def State.KeepsFlags (s t : State) : Prop :=
  (t.byteIe = s.byteIe ∧ t.doneIe = s.doneIe ∧ t.errIe = s.errIe) ∧
  (s.byte = true → t.byte = true) ∧ (s.done = true → t.done = true) ∧ (s.err = true → t.err = true)

theorem keepsFlags_refl (s : State) : s.KeepsFlags s := ⟨⟨rfl, rfl, rfl⟩, id, id, id⟩

theorem keepsFlags_raise (s : State) (e : ErrCode) : s.KeepsFlags (s.raise e) := ⟨⟨rfl, rfl, rfl⟩, id, id, fun _ => rfl⟩

theorem irq_eq_true_iff : s.irq = true ↔
    (s.byte = true ∧ s.byteIe = true) ∨ (s.done = true ∧ s.doneIe = true) ∨ (s.err = true ∧ s.errIe = true) := by
  simp [State.irq, or_assoc]

theorem State.KeepsFlags.irq (h : s.KeepsFlags t) (hirq : s.irq = true) : t.irq = true := by
  obtain ⟨⟨hbyteIe, hdoneIe, herrIe⟩, hbyte, hdone, herr⟩ := h
  rw [irq_eq_true_iff] at hirq ⊢
  rw [hbyteIe, hdoneIe, herrIe]
  exact hirq.imp (And.imp_left hbyte) (Or.imp (And.imp_left hdone) (And.imp_left herr))

/-! The frame of an engine step. -/

/-- What a step of the engine agent `a` may change of the enables, the flags, the registers and the history. -/
structure EngineFrame (a : Agent) (s t : State) : Prop where
  en      : t.en = s.en
  flags   : s.KeepsFlags t
  history : s.GrowsTo t
  request : t.count = s.count ∧ t.bufptr = s.bufptr ∧ t.slave = s.slave
  counted : (t.addr = s.addr ∧ t.completed = s.completed) ∨
    (a = .seq ∧ s.sstep = .ssNext ∧ t.addr = s.addr + 1 ∧ t.completed = s.completed + 1)
  txdata  : t.txdata = s.txdata ∨ (a = .ce ∧ s.sdir = false)
  rxdata  : t.rxdata = s.rxdata ∨ (a = .bus ∧ s.bstate = .receivingByte)

/-- The frame's cases below name only the fields in which an action differs from doing nothing. -/
theorem engineFrame_refl (a : Agent) (s : State) : EngineFrame a s s :=
  ⟨rfl, keepsFlags_refl s, growsTo_of_history_eq rfl, ⟨rfl, rfl, rfl⟩, .inl ⟨rfl, rfl⟩, .inl rfl, .inl rfl⟩

/-- A failed phase leaves its event in the history and raises BusTimeout (40_bus_primitive R126). -/
theorem failed_frame (s : State) (d : Device) (e : BusEvent) :
    EngineFrame .bus s ({ s with device := d, history := s.history ++ [e] } : State).fail :=
  { engineFrame_refl .bus s with flags := keepsFlags_raise s .busTimeout, history := growsTo_of_event rfl }

theorem busStep_frame (h : busStep s = .next t) : EngineFrame .bus s t := by
  rcases busStep_cases h with ⟨-, rfl⟩ | ⟨hst, rfl⟩ | ⟨-, rfl⟩
  · rcases finishTx_cases s with ⟨ht, -⟩ | ⟨e, -, ht, -⟩
    · exact ht ▸ { engineFrame_refl .bus s with history := growsTo_of_event rfl }
    · exact ht ▸ failed_frame s _ e
  · rcases finishRx_cases s with ⟨v, -, ht⟩ | ⟨-, ht⟩
    · exact ht ▸ { engineFrame_refl .bus s with history := growsTo_of_event rfl, rxdata := .inr ⟨rfl, hst⟩ }
    · exact ht ▸ failed_frame s _ _
  · exact { engineFrame_refl .bus s with history := growsTo_of_event rfl }

theorem seqAddr_frame (s : State) : EngineFrame .seq s s.seqAddr := by
  unfold State.seqAddr
  split
  · exact { engineFrame_refl .seq s with }
  · exact { engineFrame_refl .seq s with }

theorem seqNext_frame (hs : s.sstep = .ssNext) : EngineFrame .seq s s.seqNext := by
  unfold State.seqNext
  dsimp only
  split
  · exact { engineFrame_refl .seq s with
      flags := ⟨⟨rfl, rfl, rfl⟩, fun _ => rfl, id, id⟩, counted := .inr ⟨rfl, hs, rfl, rfl⟩ }
  · exact { engineFrame_refl .seq s with
      flags := ⟨⟨rfl, rfl, rfl⟩, fun _ => rfl, fun _ => rfl, id⟩, counted := .inr ⟨rfl, hs, rfl, rfl⟩ }

theorem seqStep_frame (h : seqStep s = .next t) : EngineFrame .seq s t := by
  rcases seqStep_cases h with ⟨-, rfl⟩ | ⟨-, rfl⟩ | ⟨-, rfl⟩ | ⟨-, rfl⟩ | ⟨-, rfl⟩ | ⟨hs, rfl⟩ | ⟨-, rfl⟩
  · exact { engineFrame_refl .seq s with history := growsTo_of_event rfl }
  · exact seqAddr_frame s
  · exact { engineFrame_refl .seq s with history := growsTo_of_event rfl }
  · exact { engineFrame_refl .seq s with }
  · exact { engineFrame_refl .seq s with }
  · exact seqNext_frame hs
  · exact { engineFrame_refl .seq s with }

theorem ceStep_frame (h : ceStep s = .next t) : EngineFrame .ce s t := by
  obtain ⟨-, ⟨hd, rfl⟩ | ⟨-, rfl⟩⟩ := ceStep_cases h
  · exact { engineFrame_refl .ce s with txdata := .inr ⟨rfl, hd⟩ }
  · exact { engineFrame_refl .ce s with }

theorem agentStep_frame {a : Agent} (h : agentStep a s = .next t) : EngineFrame a s t := by
  cases a with
  | bus => exact busStep_frame h
  | seq => exact seqStep_frame h
  | ce => exact ceStep_frame h

/-! The frame of a command. -/

/-- What a command may change of the enables, the flags, the registers and the history. -/
structure CommandFrame (i : Instr) (s t : State) : Prop where
  en        : t.en = s.en
  flags     : s.KeepsFlags t ∨ i = .xferW ∨ i = .xferR
  history   : s.GrowsTo t
  registers : t.addr = s.addr ∧ t.count = s.count ∧ t.bufptr = s.bufptr ∧ t.txdata = s.txdata ∧ t.rxdata = s.rxdata ∧
    t.slave = s.slave
  completed : t.completed = s.completed ∨ i = .xferW ∨ i = .xferR

theorem commandFrame_refl (i : Instr) (s : State) : CommandFrame i s s :=
  ⟨rfl, .inl (keepsFlags_refl s), growsTo_of_history_eq rfl, ⟨rfl, rfl, rfl, rfl, rfl, rfl⟩, .inl rfl⟩

theorem commandFrame_raise (i : Instr) (s : State) (e : ErrCode) : CommandFrame i s (s.raise e) :=
  { commandFrame_refl i s with flags := .inl (keepsFlags_raise s e) }

theorem accept_frame {i : Instr} (hi : i = .xferW ∨ i = .xferR) (s : State) (dir : Bool) :
    CommandFrame i s (s.accept dir) := by
  unfold State.accept
  split
  · exact { commandFrame_refl i s with flags := .inr hi, completed := .inr hi }
  · exact { commandFrame_refl i s with flags := .inr hi, completed := .inr hi }

theorem exec_frame {i : Instr} (h : exec i s = .next t) : CommandFrame i s t := by
  rcases exec_cases h with ⟨-, rfl⟩ | ⟨-, c, -, -, rfl⟩ | ⟨-, -, -, hdone⟩
  · exact commandFrame_refl i _
  · exact commandFrame_raise i s c
  · rcases hdone with ⟨-, -, rfl⟩ | ⟨-, -, rfl⟩ | ⟨-, -, rfl⟩ | ⟨-, -, rfl⟩ | ⟨-, -, rfl⟩ | ⟨-, -, rfl⟩ |
      ⟨-, -, rfl⟩ | ⟨hi, -, -, rfl⟩ | ⟨hi, -, -, rfl⟩
    · exact { commandFrame_refl i s with history := growsTo_of_event rfl }
    · exact { commandFrame_refl i s with history := growsTo_of_event rfl }
    · exact { commandFrame_refl i s with }
    · exact { commandFrame_refl i s with }
    · exact { commandFrame_refl i s with }
    · exact { commandFrame_refl i s with }
    · exact { commandFrame_refl i s with }
    · exact accept_frame (.inl hi) s false
    · exact accept_frame (.inr hi) s true

/-! The frame of a host step other than the reset input. -/

/-- What a host step may change of the enables, the flags, the registers and the history, and by which access. -/
structure HostFrame (op : HostOp) (s t : State) : Prop where
  en        : s.en = true → s.sbusy = true ∨ s.held = true → t.en = true
  flags     : s.KeepsFlags t ∨ (∃ v, op = wr16 .ctrl v) ∨ (∃ v, op = wr16 .status v) ∨ op = command .xferW ∨
    op = command .xferR
  history   : s.GrowsTo t
  addr      : t.addr = s.addr ∨ (s.sbusy = false ∧ ∃ v, op = wr16 .addr v)
  count     : t.count = s.count ∨ (s.sbusy = false ∧ op = wr16 .count t.count)
  bufptr    : t.bufptr = s.bufptr ∨ (s.sbusy = false ∧ op = wr16 .bufptr t.bufptr)
  txdata    : t.txdata = s.txdata ∨ (s.sbusy = false ∧ ∃ v, op = wr16 .txdata v)
  slave     : t.slave = s.slave ∨ (s.sbusy = false ∧ s.held = false ∧ ∃ v, op = wr16 .slave v)
  rxdata    : t.rxdata = s.rxdata
  completed : t.completed = s.completed ∨ op = command .xferW ∨ op = command .xferR

theorem hostFrame_refl (op : HostOp) (s : State) : HostFrame op s s :=
  ⟨fun hen _ => hen, .inl (keepsFlags_refl s), growsTo_of_history_eq rfl, .inl rfl, .inl rfl, .inl rfl, .inl rfl,
    .inl rfl, rfl, .inl rfl⟩

theorem hostFrame_raise (op : HostOp) (s : State) (e : ErrCode) : HostFrame op s (s.raise e) :=
  { hostFrame_refl op s with flags := .inl (keepsFlags_raise s e) }

/-- The frame of a command is that of the host's write of its word to CMD. -/
theorem CommandFrame.host {i : Instr} (h : CommandFrame i s t) : HostFrame (command i) s t := by
  obtain ⟨haddr, hcount, hbufptr, htxdata, hrxdata, hslave⟩ := h.registers
  have transfer : i = .xferW ∨ i = .xferR → command i = command .xferW ∨ command i = command .xferR :=
    Or.imp (congrArg command) (congrArg command)
  exact ⟨fun hen _ => h.en.trans hen, h.flags.imp_right (.inr <| .inr <| transfer ·), h.history, .inl haddr,
    .inl hcount, .inl hbufptr, .inl htxdata, .inl hslave, hrxdata, h.completed.imp_right transfer⟩

theorem writeCmd_frame {v : Word} (h : writeCmd v s = .next t) : HostFrame (wr16 .cmd v) s t := by
  rcases writeCmd_cases h with ⟨i, hi, hexec⟩ | ⟨-, rfl⟩
  · rw [eq_encode_of_decodeWord hi]
    exact (exec_frame hexec).host
  · exact hostFrame_raise _ s _

/-- A write to CTRL keeps EN while the bus has an owner (10_state R22). -/
theorem writeCtrl_frame (s : State) (v : Word) : HostFrame (wr16 .ctrl v) s (s.writeCtrl v) := by
  unfold State.writeCtrl
  dsimp only
  split
  case isTrue => exact { hostFrame_refl _ s with flags := .inr (.inl ⟨v, rfl⟩) }
  case isFalse hfree =>
    refine { hostFrame_refl _ s with flags := .inr (.inl ⟨v, rfl⟩), en := fun hen howner => ?_ }
    by_contra hoff
    exact hfree ⟨Bool.eq_false_of_not_eq_true hoff, hen, howner⟩

theorem writeReg_frame {r : Reg} {v : Word} (h : writeReg r v s = .next t) : HostFrame (wr16 r v) s t := by
  rcases writeReg_cases h with ⟨rfl, hcmd⟩ | ⟨rfl, rfl⟩ | ⟨rfl, rfl⟩ | ⟨-, rfl⟩ | ⟨-, rfl⟩ | ⟨rfl, hidle, rfl⟩ |
    ⟨rfl, hidle, rfl⟩ | ⟨rfl, hidle, rfl⟩ | ⟨rfl, hidle, rfl⟩ | ⟨rfl, hidle, hfree, rfl⟩
  · exact writeCmd_frame hcmd
  · exact writeCtrl_frame s v
  · exact { hostFrame_refl _ s with flags := .inr (.inr (.inl ⟨v, rfl⟩)) }
  · exact hostFrame_refl _ _
  · exact hostFrame_raise _ s _
  · exact { hostFrame_refl _ s with addr := .inr ⟨hidle, v, rfl⟩ }
  · exact { hostFrame_refl _ s with count := .inr ⟨hidle, rfl⟩ }
  · exact { hostFrame_refl _ s with bufptr := .inr ⟨hidle, rfl⟩ }
  · exact { hostFrame_refl _ s with txdata := .inr ⟨hidle, v, rfl⟩ }
  · exact { hostFrame_refl _ s with slave := .inr ⟨hidle, hfree, v, rfl⟩ }

/-- A register other than the reserved ones is reached at its own offset only (10_state R20). -/
theorem offset_of_accessedReg {w : AccessWidth} {o : Nat} {r : Reg} (h : accessedReg w o = some r)
    (hr : r ≠ .reserved) : w = .w16 ∧ o = r.offset := by
  cases w with
  | w8 | w32 => cases h
  | w16 =>
    refine ⟨rfl, ?_⟩
    simp only [accessedReg, regAt] at h
    split at h <;> cases h <;> simp [Reg.offset] at hr ⊢

theorem hostStep_frame {op : HostOp} (h : hostStep op s = .next t) (hreset : ∀ d, op ≠ .reset d) :
    HostFrame op s t := by
  rcases hostStep_cases h with ⟨w, o, r, rfl, -, rfl⟩ | ⟨w, o, v, r, rfl, hreg, hwrite⟩ | ⟨a, rfl, rfl⟩ |
    ⟨a, b, rfl, rfl⟩ | ⟨d, rfl, -⟩
  · exact { hostFrame_refl _ s with }
  · by_cases hr : r = .reserved
    · subst hr
      cases hwrite
      exact hostFrame_refl _ s
    · obtain ⟨rfl, rfl⟩ := offset_of_accessedReg hreg hr
      exact writeReg_frame hwrite
  · exact { hostFrame_refl _ s with }
  · exact { hostFrame_refl _ s with }
  · exact absurd rfl (hreset d)

/-! A step of the machine. -/

/-- A step is the reset input, another host step or an engine step, the last two each with its frame; the host's coming
steps stand in neither frame. -/
theorem step_frame (h : step s = .next t) :
    (∃ d rest, s.dueOp = some (.reset d) ∧ t = ({ s with inputs := rest } : State).resetBlock d) ∨
    (∃ op, s.dueOp = some op ∧ HostFrame op s t) ∨
    (∃ a, s.enabledAgent = some a ∧ s.dueOp = none ∧ EngineFrame a s t) := by
  rcases step_cases h with ⟨i, rest, -, hdue, hhost⟩ | ⟨a, ins, ha, hdue, -, hagent⟩ | ⟨-, -, hstuck⟩
  · by_cases hreset : ∃ d, i.op = .reset d
    · obtain ⟨d, hd⟩ := hreset
      rw [hd] at hdue hhost
      cases hhost
      exact .inl ⟨d, rest, hdue, rfl⟩
    · exact .inr (.inl ⟨i.op, hdue, { hostStep_frame hhost (not_exists.mp hreset) with }⟩)
  · exact .inr (.inr ⟨a, ha, hdue, { agentStep_frame hagent with }⟩)
  · cases hstuck

/-- Settles O29: only a write to CTRL or STATUS and a transfer command have a frame in which a flag or its enable may
fall. -/
theorem interruptHeldUntilTheHostActs : Obligations.InterruptHeldUntilTheHostActs := by
  refine ⟨fun s => irq_eq_true_iff, fun s b => rfl, fun s t hstep hirq hirq' => ?_⟩
  have hlost : ¬s.KeepsFlags t := fun hkeeps => by simp [hkeeps.irq hirq] at hirq'
  rcases step_frame hstep with ⟨d, -, hdue, -⟩ | ⟨op, hdue, hframe⟩ | ⟨a, -, -, hframe⟩
  · exact .inr (.inr (.inr (.inr ⟨d, hdue⟩)))
  · rcases hframe.flags.resolve_left hlost with ⟨v, rfl⟩ | ⟨v, rfl⟩ | rfl | rfl
    · exact .inl ⟨v, hdue⟩
    · exact .inr (.inl ⟨v, hdue⟩)
    · exact .inr (.inr (.inl hdue))
    · exact .inr (.inr (.inr (.inl hdue)))
  · exact absurd hframe.flags hlost

/-- Settles O32: the frames of engine steps keep EN, and a host step's keeps it while the bus has an owner. -/
theorem enableKeptByTheOwnerOfTheBus : Obligations.EnableKeptByTheOwnerOfTheBus := by
  intro s t hstep hen howner hoff
  rcases step_frame hstep with ⟨d, -, hdue, -⟩ | ⟨op, -, hframe⟩ | ⟨a, -, -, hframe⟩
  · exact ⟨d, hdue⟩
  · simp [hframe.en hen howner] at hoff
  · simp [hframe.en, hen] at hoff

/-- Settles O43: each register's writers are those its frames name. -/
theorem registerWriters : Obligations.RegisterWriters := by
  intro s t hstep hreset
  rcases step_frame hstep with ⟨d, -, hdue, -⟩ | ⟨op, hdue, hframe⟩ | ⟨a, ha, hdue, hframe⟩
  · exact absurd ⟨d, hdue⟩ hreset
  · simp only [hdue, Option.some.injEq]
    refine ⟨fun hne => .inl (hframe.addr.resolve_left hne), hframe.count.resolve_left, hframe.bufptr.resolve_left,
      fun hne => .inl (hframe.txdata.resolve_left hne), hframe.slave.resolve_left, fun hne => absurd hframe.rxdata hne,
      fun hne => ?_⟩
    rcases hframe.completed.resolve_left hne with hop | hop
    · exact .inl hop
    · exact .inr (.inl hop)
  · obtain ⟨hcount, hbufptr, hslave⟩ := hframe.request
    refine ⟨fun hne => .inr ?_, fun hne => absurd hcount hne, fun hne => absurd hbufptr hne, fun hne => .inr ?_,
      fun hne => absurd hslave hne, fun hne => ?_, fun hne => .inr (.inr ?_)⟩
    case refine_1 =>
      obtain ⟨rfl, hs, haddr, -⟩ := hframe.counted.resolve_left fun hkept => hne hkept.1
      exact ⟨hdue, ha, hs, haddr⟩
    case refine_2 =>
      obtain ⟨rfl, hd⟩ := hframe.txdata.resolve_left hne
      exact ⟨hdue, ha, hd⟩
    case refine_3 =>
      obtain ⟨rfl, hst⟩ := hframe.rxdata.resolve_left hne
      exact ⟨hdue, enabledAgent_eq_bus_iff.mp ha, hst⟩
    case refine_4 =>
      obtain ⟨rfl, hs, -, hcompleted⟩ := hframe.counted.resolve_left fun hkept => hne hkept.2
      exact ⟨hdue, ha, hs, hcompleted⟩

/-- Settles O44: every frame lets the history grow by one event, and a reset leaves it alone. -/
theorem historyOnlyGrows : Obligations.HistoryOnlyGrows := by
  intro s t hstep
  rcases step_frame hstep with ⟨d, rest, -, rfl⟩ | ⟨op, -, hframe⟩ | ⟨a, -, -, hframe⟩
  · exact growsTo_of_history_eq rfl
  · exact hframe.history
  · exact hframe.history

end Sys2Proof.Machine
end

section
/-! Proofs about the registers as the host sees them (10_state R20 to R35, R44), the command register, and the reset
(10_state R40; 70_reset R250 to R252). -/

namespace Sys2Proof.Machine

variable {s : State}

/-! The host's next step when it is due. -/

/-- A due host step takes its input and is the step of the machine (00_scope R9). -/
theorem step_of_due {i : Input} {rest : List Input} (hi : s.inputs = i :: rest)
    (hdue : i.after = 0 ∨ s.enabledAgent = none) : step s = hostStep i.op { s with inputs := rest } := by
  unfold step nextStep
  rw [hi]
  cases ha : s.enabledAgent with
  | none => rfl
  | some a => exact if_pos (hdue.resolve_right (by simp [ha]))

theorem writeCmd_of_ok {w : Word} {i : Instr} (h : decodeWord w = .ok i) (s : State) : writeCmd w s = exec i s := by
  simp only [writeCmd, h]

theorem writeCmd_of_error {w : Word} {e : DecodeError} (h : decodeWord w = .error e) (s : State) :
    writeCmd w s = .next (s.raise .illegalCommand) := by
  simp only [writeCmd, h]

/-- A table word decodes as the word its low 16 bits are. -/
theorem decodeWord_of_decodeTableWord {w : Nat} {i : Instr} (h : decodeTableWord 16 w = some i) :
    decodeWord (BitVec.ofNat 16 (w % 2 ^ 16)) = .ok i := by
  simp only [decodeTableWord, bytesOfWord, decode, wordOfBytes_bytes] at h
  cases hd : decodeWord (BitVec.ofNat 16 (w % 2 ^ 16)) with
  | ok j =>
    simp only [hd, Option.some.injEq] at h
    rw [h]
  | error e => simp only [hd, reduceCtorEq] at h

/-- Settles O4: the host's due write to CMD is the step, and a CMD write runs the command its word decodes to. -/
theorem stepRunsTheWrittenCommand : Obligations.StepRunsTheWrittenCommand := by
  refine ⟨fun s n w rest hi hdue => ?_, fun s w i hw => ?_, fun s => rfl⟩
  · rw [step_of_due hi hdue]
    exact ⟨fun i hd => writeCmd_of_ok hd _, fun e hd => writeCmd_of_error hd _⟩
  · rw [step_of_due rfl (.inl rfl)]
    exact writeCmd_of_ok (decodeWord_of_decodeTableWord hw) _

/-! Reads, and the fields of STATUS. -/

/-- Settles O18: each offset names its register, and the two flag words are the sums of their fields. -/
theorem registerReads : Obligations.RegisterReads := by
  intro s
  refine ⟨rfl, rfl, rfl, ?_, rfl, rfl, rfl, ?_, ?_, ?_, ?_, ctrlWord_toNat s, statusWord_toNat s⟩
  case refine_1 | refine_2 | refine_3 | refine_4 =>
    rw [BitVec.ofNat_toNat]
    rfl
  case refine_5 =>
    intro o ho
    fin_cases ho
    all_goals rfl

/-- Bits 2:0 of STATUS are BSTATE (10_state R24). -/
theorem statusWord_bits_bstate (s : State) : s.statusWord.extractLsb' 0 3 = s.bstate.code := by
  have hcode := s.bstate.code.isLt
  apply BitVec.eq_of_toNat_eq
  rw [BitVec.extractLsb'_toNat, statusWord_toNat, Nat.shiftRight_zero]
  omega

/-- Bits 12:10 of STATUS are ERRCODE (10_state R24). -/
theorem statusWord_bits_errcode (s : State) : s.statusWord.extractLsb' 10 3 = s.errcode.code := by
  have hbstate := s.bstate.code.isLt
  have hcode := s.errcode.code.isLt
  have hbit := Bool.toNat_le
  have hheld := hbit s.held
  have hrxmode := hbit s.rxmode
  have hready := hbit s.ready
  have hsbusy := hbit s.sbusy
  have hbyte := hbit s.byte
  have hdone := hbit s.done
  have herr := hbit s.err
  apply BitVec.eq_of_toNat_eq
  rw [BitVec.extractLsb'_toNat, statusWord_toNat, Nat.shiftRight_eq_div_pow]
  omega

/-- Settles O19: the two fields of STATUS are the codes, and the codes are the numbers of R25 and R210. -/
theorem statusCodes : Obligations.StatusCodes := by
  intro s
  rw [statusWord_bits_bstate, statusWord_bits_errcode]
  constructor
  · cases s.bstate <;> rfl
  · cases s.errcode <;> rfl

/-! Writes. -/

/-- Settles O20: by definition, the two branches of R22. -/
theorem controlRegisterWrite : Obligations.ControlRegisterWrite :=
  fun _ _ => rfl

/-- Settles O21: a STATUS write is the acknowledgement of the flags it names. -/
theorem statusRegisterWrite : Obligations.StatusRegisterWrite := by
  refine fun s v => ⟨s.acknowledge v, rfl, rfl, ?_, ?_, ?_⟩
  · simp [State.acknowledge, and_comm]
  · simp [State.acknowledge, and_comm]
  · simp [State.acknowledge, and_comm]

/-- Settles O22: each lockable register's write takes its locked branch. -/
theorem lockedWritesAreRejected : Obligations.LockedWritesAreRejected := by
  refine fun s v => ⟨fun hbusy o ho => ?_, fun howner => congrArg Host.Outcome.next (if_pos howner)⟩
  fin_cases ho
  all_goals exact congrArg Host.Outcome.next (if_pos hbusy)

/-- Settles O23: each lockable register's write takes its unlocked branch. -/
theorem requestRegisterWrites : Obligations.RequestRegisterWrites := by
  intro s v hidle
  have unlocked (t u : State) : (if s.sbusy = true then t else u) = u := if_neg (by simp [hidle])
  refine ⟨congrArg Host.Outcome.next (unlocked _ _), congrArg Host.Outcome.next (unlocked _ _),
    congrArg Host.Outcome.next (unlocked _ _), congrArg Host.Outcome.next (unlocked _ _), fun hfree => ?_⟩
  exact congrArg Host.Outcome.next (if_neg (by simp [hidle, hfree]))

/-- Settles O24: the six offsets name the reserved register, which reads 0 and ignores writes. -/
theorem reservedOffsets : Obligations.ReservedOffsets := by
  intro s v o ho
  fin_cases ho
  all_goals exact ⟨rfl, rfl⟩

/-- Settles O25: by definition. -/
theorem readOnlyRegistersIgnoreWrites : Obligations.ReadOnlyRegistersIgnoreWrites :=
  fun _ _ => ⟨rfl, rfl⟩

/-! Reset. -/

/-- The flag words after a reset are those of the state the machine starts in: no enable, READY alone (10_state R40). -/
theorem flagWords_resetBlock (s : State) (d : ResetDraw) :
    (s.resetBlock d).ctrlWord = 0x0000 ∧ (s.resetBlock d).statusWord = 0x0020 := by
  have hctrl : (s.resetBlock d).ctrlWord = State.reset.ctrlWord := rfl
  have hstatus : (s.resetBlock d).statusWord = State.reset.statusWord := rfl
  exact ⟨hctrl.trans rfl, hstatus.trans rfl⟩

theorem exec_startW_of_accepted (h : s.primitiveError s.legalStart = none) :
    exec .startW s = .next (s.issueStart false) :=
  performUnless_none (act := fun s => s.issueStart false) h

theorem exec_startR_of_accepted (h : s.primitiveError s.legalStart = none) :
    exec .startR s = .next (s.issueStart true) :=
  performUnless_none (act := fun s => s.issueStart true) h

/-- A block just reset, once enabled, passes every check of a start (30_encoding R97). -/
theorem primitiveError_start_resetBlock (s : State) (d : ResetDraw) :
    ({ s.resetBlock d with en := true } : State).primitiveError
      ({ s.resetBlock d with en := true } : State).legalStart = none :=
  primitiveError_eq_none_iff.mpr ⟨rfl, rfl, rfl, rfl⟩

/-- Settles O45: the registers, the record and the model's own fields by definition of the reset; the bus is free, so
the first start is no repeated one (70_reset R252). -/
theorem resetInput : Obligations.ResetInput := by
  intro s d
  obtain ⟨hctrl, hstatus⟩ := flagWords_resetBlock s d
  have haccepted := primitiveError_start_resetBlock s d
  exact ⟨s.resetBlock d, rfl, hctrl, hstatus, rfl, rfl, rfl, rfl, rfl, rfl, rfl, rfl, rfl, rfl, rfl, rfl, rfl, rfl, rfl,
    rfl, rfl, ⟨_, exec_startW_of_accepted haccepted, rfl⟩, ⟨_, exec_startR_of_accepted haccepted, rfl⟩⟩

/-- Settles O46: by evaluation of the one state. -/
theorem stateAfterReset : Obligations.StateAfterReset :=
  ⟨rfl, rfl, rfl, rfl, rfl⟩

end Sys2Proof.Machine
end

section
/-! Proofs about host accesses, system memory and the reference slave (20_memory R61 to R79): which accesses are defined,
what a read after a write returns, which steps write memory, and the reference slave's answers. -/

namespace Sys2Proof.Machine

variable {s t : State}

/-! Defined accesses (20_memory R61). -/

theorem aligned_of_regAt_eq_some {o : Nat} {r : Reg} (h : regAt o = some r) : o % 2 = 0 ∧ o ≤ 0x1E := by
  unfold regAt at h
  split at h
  case h_17 => cases h
  all_goals decide

theorem accessedReg_eq_none_iff {w : AccessWidth} {o : Nat} :
    accessedReg w o = none ↔ ¬(w = .w16 ∧ o % 2 = 0 ∧ o ≤ 0x1E) := by
  refine ⟨not_aligned_of_accessedReg_eq_none, fun h => ?_⟩
  cases w with
  | w8 | w32 => rfl
  | w16 => exact Option.eq_none_iff_forall_ne_some.mpr fun r hr => h ⟨rfl, aligned_of_regAt_eq_some hr⟩

/-- A host address names an offset of the block, or lies outside the block and names none (20_memory R61). -/
theorem offsetOfAddress_cases (a : Nat) :
    (∃ o, offsetOfAddress a = some o ∧ a = Config.regBase + o ∧ o ≤ 0x1F) ∨
    (offsetOfAddress a = none ∧ (a < Config.regBase ∨ Config.regBase + 0x1F < a)) := by
  have hsize : Config.regBlockSize = 32 := rfl
  by_cases h : Config.regBase ≤ a ∧ a < Config.regBase + Config.regBlockSize
  · exact .inl ⟨a - Config.regBase, if_pos h, by omega, by omega⟩
  · exact .inr ⟨if_neg h, by omega⟩

/-- Settles O26: an access reaches a register exactly when it is aligned, and a reached register takes every read and
write. -/
theorem onlyAlignedWordAccessesAreDefined : Obligations.OnlyAlignedWordAccessesAreDefined := by
  refine ⟨fun s w o v => ⟨fun haligned => ?_, fun hbad => ?_⟩, offsetOfAddress_cases⟩
  · obtain ⟨r, hr⟩ := Option.ne_none_iff_exists'.mp fun hnone => accessedReg_eq_none_iff.mp hnone haligned
    simp only [hostStep, hr]
    exact ⟨⟨_, rfl⟩, exists_next_writeReg r v s⟩
  · simp only [hostStep, accessedReg_eq_none_iff.mpr hbad, and_self]

/-! System memory (20_memory R65, R66, R69). -/

/-- Settles O41: the laws of a read after a write, at 16-bit addresses. -/
theorem hostMemoryReadsLastWrite : Obligations.HostMemoryReadsLastWrite := by
  refine fun s a b hwf => ⟨{ s with mem := s.mem.write a.toNat b }, rfl, rfl, fun c => ?_⟩
  have hread : (s.mem.write a.toNat b).read c.toNat = if c = a then b else s.mem.read c.toNat := by
    split
    case isTrue hsame => rw [hsame, Memory.read_write_eq _ _ _ _ hwf]
    case isFalse hne => rw [Memory.read_write_ne _ _ _ _ _ hwf (hne ∘ BitVec.eq_of_toNat_eq)]
  rw [← apply_ite BitVec.toNat, BitVec.ofNat_toNat, ← hread]
  rfl

theorem busStep_mem (h : busStep s = .next t) : t.mem = s.mem := by
  rcases busStep_cases h with ⟨-, rfl⟩ | ⟨-, rfl⟩ | ⟨-, rfl⟩
  · rcases finishTx_cases s with ⟨ht, -⟩ | ⟨e, -, ht, -⟩
    · rw [ht]
    · rw [ht, State.fail_mem]
  · rcases finishRx_cases s with ⟨v, -, ht⟩ | ⟨-, ht⟩
    · rw [ht]
    · rw [ht, State.fail_mem]
  · rfl

theorem seqAddr_mem (s : State) : s.seqAddr.mem = s.mem := by
  unfold State.seqAddr
  split <;> rfl

theorem seqNext_mem (s : State) : s.seqNext.mem = s.mem := by
  unfold State.seqNext
  dsimp only
  split <;> rfl

theorem seqStep_mem (h : seqStep s = .next t) : t.mem = s.mem := by
  rcases seqStep_cases h with ⟨-, rfl⟩ | ⟨-, rfl⟩ | ⟨-, rfl⟩ | ⟨-, rfl⟩ | ⟨-, rfl⟩ | ⟨-, rfl⟩ | ⟨-, rfl⟩
  · rfl
  · exact seqAddr_mem s
  · rfl
  · rfl
  · rfl
  · exact seqNext_mem s
  · rfl

/-- The one engine step that writes memory is the copy engine's move in a read transfer (41_block_transfer R174). -/
theorem agentStep_mem_cases {a : Agent} (h : agentStep a s = .next t) :
    t.mem = s.mem ∨ (a = .ce ∧ s.sdir = true ∧ t.mem = s.mem.write s.ceAddress s.rxdata) := by
  cases a with
  | bus => exact .inl (busStep_mem h)
  | seq => exact .inl (seqStep_mem h)
  | ce =>
    obtain ⟨-, ⟨-, rfl⟩ | ⟨hread, rfl⟩⟩ := ceStep_cases h
    · exact .inl rfl
    · exact .inr ⟨rfl, hread, rfl⟩

theorem accept_mem (s : State) (dir : Bool) : (s.accept dir).mem = s.mem := by
  unfold State.accept
  split <;> rfl

theorem exec_mem {i : Instr} (h : exec i s = .next t) : t.mem = s.mem := by
  rcases exec_cases h with ⟨-, rfl⟩ | ⟨-, c, -, -, rfl⟩ | ⟨-, -, -, hdone⟩
  · rfl
  · rfl
  · rcases hdone with ⟨-, -, rfl⟩ | ⟨-, -, rfl⟩ | ⟨-, -, rfl⟩ | ⟨-, -, rfl⟩ | ⟨-, -, rfl⟩ | ⟨-, -, rfl⟩ |
      ⟨-, -, rfl⟩ | ⟨-, -, -, rfl⟩ | ⟨-, -, -, rfl⟩
    · rfl
    · rfl
    · rfl
    · rfl
    · rfl
    · rfl
    · rfl
    · exact accept_mem s false
    · exact accept_mem s true

theorem writeCtrl_mem (s : State) (v : Word) : (s.writeCtrl v).mem = s.mem := by
  unfold State.writeCtrl
  dsimp only
  split <;> rfl

theorem writeReg_mem {r : Reg} {v : Word} (h : writeReg r v s = .next t) : t.mem = s.mem := by
  rcases writeReg_cases h with ⟨-, hcmd⟩ | ⟨-, rfl⟩ | ⟨-, rfl⟩ | ⟨-, rfl⟩ | ⟨-, rfl⟩ | ⟨-, -, rfl⟩ | ⟨-, -, rfl⟩ |
    ⟨-, -, rfl⟩ | ⟨-, -, rfl⟩ | ⟨-, -, -, rfl⟩
  case inl =>
    rcases writeCmd_cases hcmd with ⟨i, -, hexec⟩ | ⟨-, rfl⟩
    · exact exec_mem hexec
    · rfl
  case inr.inl => exact writeCtrl_mem s v
  all_goals rfl

/-- The one host step that writes memory is the host's memory write (20_memory R65). -/
theorem hostStep_mem_cases {op : HostOp} (h : hostStep op s = .next t) :
    t.mem = s.mem ∨ ∃ x b, op = .memWrite x b ∧ t.mem = s.mem.write x.toNat b := by
  rcases hostStep_cases h with ⟨w, o, r, -, -, rfl⟩ | ⟨w, o, v, r, -, -, hwrite⟩ | ⟨a, -, rfl⟩ | ⟨a, b, hop, rfl⟩ |
    ⟨d, -, rfl⟩
  · exact .inl rfl
  · exact .inl (writeReg_mem hwrite)
  · exact .inl rfl
  · exact .inr ⟨a, b, hop, rfl⟩
  · exact .inl rfl

/-- A write changes only what its own address reads as, and that becomes the byte written. -/
theorem Memory.eq_of_read_write_ne {m : Memory} {size a c : Nat} {b : Byte} (h : m.wf size = true)
    (hne : (m.write a b).read c ≠ m.read c) : c = a ∧ (m.write a b).read c = b := by
  obtain rfl : c = a := by_contra fun hca => hne (Memory.read_write_ne m size a c b h hca)
  exact ⟨rfl, Memory.read_write_eq m size c b h⟩

/-- Settles O42: memory is written by one host step and by one engine step, and an armed copy engine serves an active
transfer, whose next byte lies inside the buffer. -/
theorem memoryWriters : Obligations.MemoryWriters := by
  intro s t a hinv hstep hne
  rcases step_cases hstep with ⟨i, rest, -, hdue, hhost⟩ | ⟨g, ins, hg, hdue, -, hagent⟩ | ⟨-, -, hstuck⟩
  · rcases hostStep_mem_cases hhost with hmem | ⟨x, b, hop, hmem⟩
    · exact absurd (congrArg (Memory.read · a) hmem) hne
    · rw [hmem] at hne ⊢
      obtain ⟨ha, hb⟩ := Memory.eq_of_read_write_ne hinv.memory hne
      exact .inl ⟨x, b, hop ▸ hdue, ha, hb⟩
  · rcases agentStep_mem_cases hagent with hmem | ⟨rfl, hread, hmem⟩
    · exact absurd (congrArg (Memory.read · a) hmem) hne
    · rw [hmem] at hne ⊢
      obtain ⟨ha, hb⟩ := Memory.eq_of_read_write_ne hinv.memory hne
      obtain ⟨harmed, -, -⟩ := enabledAgent_eq_ce_iff.mp hg
      obtain ⟨hinside, -⟩ := hinv.request (hinv.sbusy_of_ceArmed harmed)
      exact .inr ⟨hdue, hg, hread, hb, ha, hinside⟩
  · cases hstuck

/-! The reference slave (20_memory R76 to R79). -/

section ReferenceSlave

variable {r : RefSlave} {b : Byte}

/-- A control byte with the slave's own address is acknowledged and names the direction (20_memory R78). -/
theorem RefSlave.answerTx_addressed (hctl : r.ctl = true) (haddr : b.extractLsb' 1 7 = r.devAddr) :
    r.answerTx b =
      (.ack, { r with ctl := false, mode := if b.getLsbD 0 = false then .wantAddr else .readData }) := by
  simp only [RefSlave.answerTx, hctl, haddr, if_true]

theorem RefSlave.answerTx_not_addressed (hctl : r.ctl = true) (haddr : b.extractLsb' 1 7 ≠ r.devAddr) :
    r.answerTx b = (.nack, { r with ctl := false, mode := .off }) := by
  simp only [RefSlave.answerTx, hctl, haddr, if_true, if_false]

theorem RefSlave.answerTx_wantAddr (hctl : r.ctl = false) (hmode : r.mode = .wantAddr) :
    r.answerTx b = (.ack, { r with ptr := b, mode := .writeData }) := by
  simp only [RefSlave.answerTx, hctl, hmode, Bool.false_eq_true, if_false]

/-- A data byte is stored at the cell pointer, which moves on (20_memory R78). -/
theorem RefSlave.answerTx_writeData (hctl : r.ctl = false) (hmode : r.mode = .writeData) :
    r.answerTx b = (.ack, { r with cells := r.cells.write r.ptr.toNat b, ptr := r.ptr + 1 }) := by
  simp only [RefSlave.answerTx, hctl, hmode, Bool.false_eq_true, if_false]

theorem RefSlave.answerTx_of_not_listening (hctl : r.ctl = false) (hmode : r.mode = .off ∨ r.mode = .readData) :
    r.answerTx b = (.nack, r) := by
  rcases hmode with hmode | hmode
  all_goals simp only [RefSlave.answerTx, hctl, hmode, Bool.false_eq_true, if_false]

theorem RefSlave.answerRx_readData (hmode : r.mode = .readData) :
    r.answerRx = (.data (r.cells.read r.ptr.toNat), { r with ptr := r.ptr + 1 }) := by
  simp only [RefSlave.answerRx, hmode]

/-- Outside a read the slave answers a receive phase with 0xFF and keeps its state (20_memory R79). -/
theorem RefSlave.answerRx_not_readData (hmode : r.mode ≠ .readData) : r.answerRx = (.data 0xFF, r) := by
  unfold RefSlave.answerRx
  cases hm : r.mode with
  | readData => exact absurd hm hmode
  | off | wantAddr | writeData => rfl

/-- The cell pointer counts modulo the number of cells (20_memory R78, R79). -/
theorem ptr_succ (p : Byte) : p + 1 = BitVec.ofNat 8 ((p.toNat + 1) % 256) := by
  apply BitVec.eq_of_toNat_eq
  simp

/-- On the bus, the reference slave answers as it does alone. -/
theorem Device.answerTx_reference {x : TxAnswer × RefSlave} (h : r.answerTx b = x) :
    Device.answerTx (.reference r) b = (x.1, .reference x.2) := by
  rw [← h, Device.answerTx]

theorem Device.answerRx_reference {x : RxAnswer × RefSlave} (h : r.answerRx = x) :
    Device.answerRx (.reference r) = (x.1, .reference x.2) := by
  rw [← h, Device.answerRx]

end ReferenceSlave

/-- Settles O40: one rule of the reference slave for each answer, and the memory laws for the cell it writes. -/
theorem referenceSlaveAnswers : Obligations.ReferenceSlaveAnswers := by
  intro r b
  refine ⟨rfl, rfl, rfl, fun hctl haddr => Device.answerTx_reference (RefSlave.answerTx_addressed hctl haddr),
    fun hctl haddr => Device.answerTx_reference (RefSlave.answerTx_not_addressed hctl haddr),
    fun hctl hmode => Device.answerTx_reference (RefSlave.answerTx_wantAddr hctl hmode), fun hctl hmode hwf => ?_,
    fun hctl hmode => Device.answerTx_reference (RefSlave.answerTx_of_not_listening hctl hmode), fun hmode => ?_,
    fun hmode => Device.answerRx_reference (RefSlave.answerRx_not_readData hmode)⟩
  · rw [← ptr_succ]
    exact ⟨_, Device.answerTx_reference (RefSlave.answerTx_writeData hctl hmode), rfl,
      Memory.read_write_eq _ _ _ _ hwf, fun a hne => Memory.read_write_ne _ _ _ _ _ hwf hne⟩
  · rw [← ptr_succ]
    exact Device.answerRx_reference (RefSlave.answerRx_readData hmode)

/-- Settles O59: at first the slave does not listen; a start makes it listen for its control byte; the invariant holds
of the state after reset beside any slave in canonical form; and the reset input does not reach the slave. -/
theorem referenceSlaveInitially : Obligations.ReferenceSlaveInitially := by
  intro devAddr cells ptr
  refine ⟨rfl, fun b => Device.answerTx_reference (RefSlave.answerTx_of_not_listening rfl (.inl rfl)),
    fun e he b haddr => ?_, fun hwf => ?_, fun s r d hslave => ⟨s.resetBlock d, rfl, hslave⟩⟩
  · have listens : (RefSlave.initial devAddr cells ptr).onEvent e =
        { RefSlave.initial devAddr cells ptr with ctl := true } := by
      fin_cases he
      all_goals rfl
    have hanswer := RefSlave.answerTx_addressed (congrArg RefSlave.ctl listens)
      (haddr.trans (congrArg RefSlave.devAddr listens).symm)
    exact congrArg Prod.fst (Device.answerTx_reference hanswer)
  · obtain ⟨-, hreset⟩ := invariantAfterReset
    exact hreset [] _ [] rfl (Device.wf_initialReference devAddr cells ptr hwf)

end Sys2Proof.Machine
end

section
/-! Proofs about the encoding of commands (30_encoding R90 to R98): the round trip of a command's word, the words that
are no command, the acceptance checks in their order, and the shorthands of host programs. -/

namespace Sys2Proof.Machine

variable {s : State} {w : Word} {i : Instr}

/-! A command's word and its fields. -/

/-- The law of each command, for all ten (30_encoding R91). -/
theorem fieldsRoundTrip (i : Instr) : Laws.FieldsRoundTrip.Statement i := by
  cases i with
  | nop => exact Laws.FieldsRoundTrip.nop
  | startW => exact Laws.FieldsRoundTrip.startW
  | startR => exact Laws.FieldsRoundTrip.startR
  | sendAddr => exact Laws.FieldsRoundTrip.sendAddr
  | sendData => exact Laws.FieldsRoundTrip.sendData
  | recvAck => exact Laws.FieldsRoundTrip.recvAck
  | recvNack => exact Laws.FieldsRoundTrip.recvNack
  | stop => exact Laws.FieldsRoundTrip.stop
  | xferW => exact Laws.FieldsRoundTrip.xferW
  | xferR => exact Laws.FieldsRoundTrip.xferR

@[simp] theorem decodeWord_encode (i : Instr) : decodeWord (encode i) = .ok i := by
  obtain ⟨-, -, hdecode, -⟩ := fieldsRoundTrip i
  exact hdecode

/-- The fields of a word that decodes: RSV is 0 and OP is the command's operation code (30_encoding R90, R91). -/
theorem fields_of_decodeWord (h : decodeWord w = .ok i) :
    w.extractLsb' 4 12 = 0 ∧ w.extractLsb' 0 4 = opcodeOf i := by
  obtain ⟨-, hfields, -, -⟩ := fieldsRoundTrip i
  rw [eq_encode_of_decodeWord h]
  exact ⟨congrArg CmdFields.rsv hfields, congrArg CmdFields.op hfields⟩

theorem opcodeOf_lt (i : Instr) : (opcodeOf i).toNat < 0xA := by
  cases i <;> decide

theorem eq_nop_of_opcodeOf_eq_zero (h : (opcodeOf i).toNat = 0) : i = .nop := by
  cases i with
  | nop => rfl
  | startW | startR | sendAddr | sendData | recvAck | recvNack | stop | xferW | xferR => exact absurd h (by decide)

theorem exists_instrOfOpcode (op : BitVec 4) (h : op.toNat < 0xA) : ∃ i, instrOfOpcode op = some i := by
  rw [← Option.isSome_iff_exists]
  revert op
  decide

/-- RSV = 0 and an assigned OP make a command (30_encoding R92). -/
theorem exists_decodeWord_eq_ok (hrsv : w.extractLsb' 4 12 = 0) (hop : (w.extractLsb' 0 4).toNat < 0xA) :
    ∃ i, decodeWord w = .ok i := by
  obtain ⟨i, hi⟩ := exists_instrOfOpcode _ hop
  exact ⟨i, by simp [decodeWord, decodeFields, CmdFields.ofWord, hrsv, hi]⟩

/-- RSV not 0 or a reserved OP make no command: a word that decodes has neither (30_encoding R92). -/
theorem exists_decodeWord_eq_error (h : w.extractLsb' 4 12 ≠ 0 ∨ 0xA ≤ (w.extractLsb' 0 4).toNat) :
    ∃ e, decodeWord w = .error e := by
  cases hd : decodeWord w with
  | error e => exact ⟨e, rfl⟩
  | ok i =>
    obtain ⟨hrsv, hop⟩ := fields_of_decodeWord hd
    exact absurd h (not_or.mpr ⟨not_not.mpr hrsv, not_le.mpr (hop ▸ opcodeOf_lt i)⟩)

/-- Settles O1: the two bytes of a word give the word back, and a command's word decodes to it. -/
theorem decodeOfEncode : Obligations.DecodeOfEncode := by
  intro i rest
  simp only [encodeBytes, bytesOfWord, List.cons_append, List.nil_append, decode, wordOfBytes_bytes, decodeWord_encode]

/-- Settles O2: a word decodes exactly when both its fields are those of a command, and then it is that command's word;
writing one that does not decode only latches the error. -/
theorem everyWordIsACommandOrIllegal : Obligations.EveryWordIsACommandOrIllegal := by
  refine fun w => ⟨fun ⟨hrsv, hop⟩ => ?_, fun hillegal => ?_, fun hnop => ?_, fun hzero => ?_⟩
  · obtain ⟨i, hi⟩ := exists_decodeWord_eq_ok hrsv hop
    exact ⟨i, hi, (eq_encode_of_decodeWord hi).symm⟩
  · obtain ⟨e, he⟩ := exists_decodeWord_eq_error hillegal
    refine ⟨⟨e, he⟩, fun i hi => ?_, writeCmd_of_error he⟩
    rw [← hi, decodeWord_encode] at he
    cases he
  · exact eq_encode_of_decodeWord hnop
  · rw [hzero]
    exact decodeWord_encode .nop

/-- Settles O3: by evaluation of the eighteen words. -/
theorem listedWordsDecode : Obligations.ListedWordsDecode := by
  unfold Obligations.ListedWordsDecode
  and_intros
  all_goals rfl

/-! The acceptance checks in their order (30_encoding R97, R98). -/

/-- A primitive command by its operation code: checks 3 to 5, then the table of R98. -/
theorem exec_primitive (hlo : 1 ≤ (opcodeOf i).toNat) (hhi : (opcodeOf i).toNat ≤ 7) (s : State) :
    exec i s =
      s.performUnless (s.primitiveError (legalOp (opcodeOf i).toNat s)) (performOp (opcodeOf i).toNat) := by
  cases i with
  | nop => exact absurd hlo (by decide)
  | xferW | xferR => exact absurd hhi (by decide)
  | startW | startR | sendAddr | sendData | stop => rfl
  | recvAck | recvNack =>
    have hlegal : s.legalRecv = (s.held && s.rxmode && s.mrecv) := (Bool.and_assoc _ _ _).symm
    simp only [exec, execRecvAck, execRecvNack, hlegal]
    rfl

/-- A transfer command by its operation code: checks 3 to 6 and 8. -/
theorem exec_transfer (hop : (opcodeOf i).toNat = 0x8 ∨ (opcodeOf i).toNat = 0x9) (s : State) :
    exec i s = s.performUnless s.transferError (performOp (opcodeOf i).toNat) := by
  cases i with
  | xferW | xferR => rfl
  | nop | startW | startR | sendAddr | sendData | recvAck | recvNack | stop => exact absurd hop (by decide)

/-- The outcome of a primitive command by the first of its checks that fails. -/
theorem performUnless_primitiveError (s : State) (legal : Bool) (act : State → State) :
    s.performUnless (s.primitiveError legal) act = .next (
      if s.en = false then s.raise .requestRejected
      else if s.sbusy = true then s.raise .requestRejected
      else if s.ready = false then s.raise .requestRejected
      else if legal = false then s.raise .illegalCommand
      else act s) := by
  unfold State.primitiveError State.busyError
  split_ifs
  all_goals rfl

/-- The outcome of a transfer command by the first of its checks that fails. -/
theorem performUnless_transferError (s : State) (act : State → State) :
    s.performUnless s.transferError act = .next (
      if s.en = false then s.raise .requestRejected
      else if s.sbusy = true then s.raise .requestRejected
      else if s.ready = false then s.raise .requestRejected
      else if s.held = true then s.raise .requestRejected
      else if s.requestOutOfRange = true then s.raise .outOfRange
      else act s) := by
  unfold State.transferError State.busyError
  split_ifs
  all_goals rfl

/-- Settles O5: a word that is no command fails check 1, NOP is check 2, and the checks from 3 on are those of a
primitive or of a transfer command, the checks of the other kind being skipped. -/
theorem acceptanceOrder : Obligations.AcceptanceOrder := by
  intro s v op
  by_cases hillegal : v.extractLsb' 4 12 ≠ 0 ∨ op ≥ 0xA
  · obtain ⟨e, he⟩ := exists_decodeWord_eq_error hillegal
    rw [if_pos hillegal]
    exact writeCmd_of_error he s
  · obtain ⟨hrsv, hassigned⟩ := not_or.mp hillegal
    obtain ⟨i, hi⟩ := exists_decodeWord_eq_ok (not_not.mp hrsv) (not_le.mp hassigned)
    obtain ⟨-, hopcode⟩ := fields_of_decodeWord hi
    have hop : op = (opcodeOf i).toNat := congrArg BitVec.toNat hopcode
    have hkind : op = 0 ∨ (1 ≤ op ∧ op ≤ 7) ∨ op = 0x8 ∨ op = 0x9 := by omega
    rw [if_neg hillegal]
    refine (writeCmd_of_ok hi s).trans ?_
    rcases hkind with hnop | ⟨hlo, hhi⟩ | htransfer
    · rw [if_pos hnop, eq_nop_of_opcodeOf_eq_zero (hop.symm.trans hnop)]
      rfl
    · have hne : op ≠ 0 := by omega
      have hprimitive : ¬(op = 0x8 ∨ op = 0x9) := by omega
      rw [exec_primitive (hop ▸ hlo) (hop ▸ hhi), ← hop, performUnless_primitiveError]
      simp [hne, hprimitive, hlo, hhi, State.raise]
    · have hne : op ≠ 0 := by omega
      have hnot : ¬(1 ≤ op ∧ op ≤ 7 ∧ legalOp op s = false) := by omega
      rw [exec_transfer (hop ▸ htransfer), ← hop, performUnless_transferError]
      simp only [requestOutOfRange_eq_true_iff, if_neg hne, if_neg hnot, htransfer, true_and, State.raise]

/-! The shorthands of host programs (30_encoding R95, R96). -/

/-- WAITREADY's mask is the bit of READY. -/
theorem waitReadyHolds_iff (s : State) : s.waitReadyHolds = true ↔ s.ready = true := by
  have hmask : s.statusWord &&& 0x0020 = if s.ready = true then 0x0020 else 0 := by
    rw [← statusWord_bit5]
    exact BitVec.and_twoPow s.statusWord 5
  simp only [State.waitReadyHolds, State.pollHolds, State.readReg, hmask]
  cases s.ready <;> decide

/-- WAITIDLE's mask is the bits of READY and SBUSY. -/
theorem waitIdleHolds_iff (s : State) : s.waitIdleHolds = true ↔ s.ready = true ∧ s.sbusy = false := by
  have hmask : s.statusWord &&& 0x0060 =
      (if s.ready = true then 0x0020 else 0) ||| (if s.sbusy = true then 0x0040 else 0) := by
    rw [← statusWord_bit5, ← statusWord_bit6]
    exact BitVec.and_or_distrib_left.trans
      (congrArg₂ (· ||| ·) (BitVec.and_twoPow s.statusWord 5) (BitVec.and_twoPow s.statusWord 6))
  simp only [State.waitIdleHolds, State.pollHolds, State.readReg, hmask]
  cases s.ready <;> cases s.sbusy <;> decide

/-- Settles O28: a command's word decodes to it, CLRFLAGS has a 1 at the three flags' bits, and the two polls test the
bits of READY and SBUSY. -/
theorem hostShorthands : Obligations.HostShorthands :=
  fun s => ⟨fun i => writeCmd_of_ok (decodeWord_encode i) s, rfl, waitReadyHolds_iff s, waitIdleHolds_iff s⟩

end Sys2Proof.Machine
end

section
/-! Proofs about the bus and its primitive commands (40_bus_primitive): the grammar of the bus history that every step
but a reset keeps, what each primitive command does and leaves unchanged, which agent is enabled, and how each phase
completes. -/

namespace Sys2Proof.Machine

variable {s t : State} {p q : BusPhase} {e : BusEvent}

/-! The grammar of 40_bus_primitive R131 over a history that grows at its end. -/

theorem busPhaseFrom_append_event (h : List BusEvent) (p : BusPhase) (hp : busPhaseFrom p h = some q) :
    busPhaseFrom p (h ++ [e]) = q.next e := by
  induction h generalizing p with
  | nil =>
    cases hp
    simp only [List.nil_append, busPhaseFrom]
    cases q.next e <;> rfl
  | cons f h ih =>
    simp only [List.cons_append, busPhaseFrom] at hp ⊢
    cases hf : p.next f with
    | none => simp [hf] at hp
    | some r => exact ih r (by simpa [hf] using hp)

theorem busPhase_append_event {h : List BusEvent} (hp : busPhase h = some p) (hq : p.next e = some q) :
    busPhase (h ++ [e]) = some q :=
  (busPhaseFrom_append_event h .free hp).trans hq

/-! Where in the grammar each kind of state stands. -/

/-- Between the control byte's acknowledgement and the stop: neither the control byte nor the stop is in flight. -/
def State.InBody (s : State) : Prop :=
  s.held = true ∧ ¬(s.bstate = .startPending ∧ s.ready = false) ∧ s.bstate ≠ .stopPending

/-- The place in the grammar of a transaction's body, as the mode has it (10_state R24). -/
def State.bodyPhase (s : State) : BusPhase :=
  if s.rxmode = false then .sending else if s.mrecv = true then .owed else .received

theorem busLegal_iff_of_free (h : s.held = false) : s.BusLegal ↔ busPhase s.history = some .free := by
  simp [State.BusLegal, State.busMatches, h]

theorem busLegal_iff_of_control (hheld : s.held = true) (hst : s.bstate = .startPending) (hr : s.ready = false) :
    s.BusLegal ↔ busPhase s.history = some .control := by
  simp [State.BusLegal, State.busMatches, hheld, hst, hr]

theorem busLegal_iff_of_stopping (hheld : s.held = true) (hst : s.bstate = .stopPending) :
    s.BusLegal ↔ ∃ p, busPhase s.history = some p ∧ (p = .sending ∨ p = .received ∨ p = .failed) := by
  simp [State.BusLegal, State.busMatches, hheld, hst]

theorem State.InBody.busLegal_iff (h : s.InBody) : s.BusLegal ↔ busPhase s.history = some s.bodyPhase := by
  obtain ⟨hheld, hcontrol, hstop⟩ := h
  have hmatches : ∀ p, s.busMatches p ↔ p = s.bodyPhase := by
    intro p
    simp only [State.busMatches, hheld, hcontrol, hstop, Bool.true_eq_false, if_false, State.bodyPhase]
    split_ifs <;> rfl
  simp [State.BusLegal, hmatches]

theorem bodyPhase_of_not_owed (h : ¬(s.rxmode = true ∧ s.mrecv = true)) :
    s.bodyPhase = .sending ∨ s.bodyPhase = .received := by
  unfold State.bodyPhase
  cases hmode : s.rxmode with
  | false => exact .inl rfl
  | true => exact .inr (if_neg fun howed => h ⟨hmode, howed⟩)

/-- With no phase in flight an open transaction stands in its body. -/
theorem State.BusConsistent.inBody (h : s.BusConsistent) (hheld : s.held = true) (hr : s.ready = true) : s.InBody := by
  obtain ⟨-, -, -, -, hstop, -⟩ := h
  exact ⟨hheld, by simp [hr], fun hst => by simp [hstop hst] at hr⟩

/-! What a phase's issue does to the place in the grammar (40_bus_primitive R113). -/

/-- A start opens a transaction on a free bus; on a held one a repeated start follows, where no byte is owed. -/
theorem State.BusLegal.issueStart (h : s.BusLegal) (hbus : s.BusConsistent) (hr : s.ready = true)
    (hl : s.legalStart = true) (rw : Bool) : (s.issueStart rw).BusLegal := by
  rw [busLegal_iff_of_control rfl rfl rfl]
  cases hheld : s.held with
  | false =>
    rw [State.issueStart_history, if_pos hheld]
    exact busPhase_append_event ((busLegal_iff_of_free hheld).mp h) rfl
  | true =>
    rw [State.issueStart_history, if_neg (by simp [hheld])]
    refine busPhase_append_event ((hbus.inBody hheld hr).busLegal_iff.mp h) ?_
    rcases bodyPhase_of_not_owed (legalStart_eq_true_iff.mp hl) with hplace | hplace
    all_goals
      rw [hplace]
      rfl

/-- A phase issued within the body puts nothing on the bus yet and keeps the mode. -/
theorem State.BusLegal.issued (h : s.BusLegal) (hs : s.InBody) (ht : t.InBody) (hhistory : t.history = s.history)
    (hmode : t.rxmode = s.rxmode ∧ t.mrecv = s.mrecv) : t.BusLegal := by
  obtain ⟨hrxmode, hmrecv⟩ := hmode
  have hplace : t.bodyPhase = s.bodyPhase := by simp only [State.bodyPhase, hrxmode, hmrecv]
  rw [ht.busLegal_iff, hhistory, hplace]
  exact hs.busLegal_iff.mp h

theorem State.BusLegal.issueTx (h : s.BusLegal) (hs : s.InBody) (b : Byte) {st : BusState}
    (hst : st = .addressing ∨ st = .transmittingByte) : (s.issueTx b st).BusLegal := by
  refine h.issued hs ⟨hs.left, ?_⟩ rfl ⟨rfl, rfl⟩
  rcases hst with rfl | rfl
  all_goals simp

theorem State.BusLegal.issueRx (h : s.BusLegal) (hs : s.InBody) (m : Bool) : (s.issueRx m).BusLegal :=
  h.issued hs ⟨hs.left, by simp⟩ rfl ⟨rfl, rfl⟩

/-- A stop is issued where no byte is owed. -/
theorem State.BusLegal.issueStop (h : s.BusLegal) (hs : s.InBody) (hl : s.legalStop = true) :
    s.issueStop.BusLegal := by
  obtain ⟨hheld, hnotOwed⟩ := legalStop_eq_true_iff.mp hl
  rw [busLegal_iff_of_stopping (s := s.issueStop) hheld rfl]
  exact ⟨s.bodyPhase, hs.busLegal_iff.mp h, (bodyPhase_of_not_owed hnotOwed).imp_right .inl⟩

/-! What a phase's completion does to it (40_bus_primitive R122 to R124, R126). -/

/-- A failed phase leaves its event, after which only the abort's stop may follow. -/
theorem busLegal_fail (hp : busPhase s.history = some p) (hheld : s.held = true) (he : p.next e = some .failed)
    (d : Device) : ({ s with device := d, history := s.history ++ [e] } : State).fail.BusLegal :=
  (busLegal_iff_of_stopping (s := ({ s with device := d, history := s.history ++ [e] } : State).fail) hheld rfl).mpr
    ⟨.failed, busPhase_append_event hp he, by simp⟩

/-- Where a transmit phase is in flight: its control byte is awaited, or a byte of the body in transmit mode. -/
theorem State.BusLegal.transmitting (h : s.BusLegal) (hbus : s.BusConsistent) (hr : s.ready = false)
    (hst : s.bstate = .startPending ∨ s.bstate = .addressing ∨ s.bstate = .transmittingByte) :
    (s.bstate = .startPending ∧ busPhase s.history = some .control) ∨
    (s.bstate ≠ .startPending ∧ s.rxmode = false ∧ busPhase s.history = some .sending) := by
  have hheld := hbus.held_of_not_ready hr
  obtain ⟨-, -, -, -, -, -, -, haddr, hdata, -⟩ := hbus
  by_cases hstart : s.bstate = .startPending
  · exact .inl ⟨hstart, (busLegal_iff_of_control hheld hstart hr).mp h⟩
  · have hbody := hst.resolve_left hstart
    have hmode : s.rxmode = false := hbody.elim haddr hdata
    have hs : s.InBody := ⟨hheld, fun hc => hstart hc.1, by rcases hbody with hb | hb <;> simp [hb]⟩
    exact .inr ⟨hstart, hmode, by simpa [State.bodyPhase, hmode] using hs.busLegal_iff.mp h⟩

theorem State.BusLegal.finishTx (h : s.BusLegal) (hbus : s.BusConsistent) (hr : s.ready = false)
    (hst : s.bstate = .startPending ∨ s.bstate = .addressing ∨ s.bstate = .transmittingByte) :
    s.finishTx.BusLegal := by
  have hheld := hbus.held_of_not_ready hr
  have hplace := h.transmitting hbus hr hst
  rcases finishTx_cases s with ⟨ht, -⟩ | ⟨e, he, ht, -⟩
  · have hbody : s.finishTx.InBody := by
      rw [ht]
      exact ⟨hheld, by simp, by rcases hst with hb | hb | hb <;> simp [hb]⟩
    rw [hbody.busLegal_iff, ht]
    rcases hplace with ⟨hstart, hp⟩ | ⟨-, hmode, hp⟩
    · obtain ⟨-, -, -, -, -, howes, hcontrol, -⟩ := hbus
      refine busPhase_append_event hp ?_
      simp only [BusPhase.next, hcontrol hstart hr, State.bodyPhase, howes hstart]
      cases s.rxmode <;> rfl
    · exact busPhase_append_event hp (by simp [BusPhase.next, State.bodyPhase, hmode])
  · rw [ht]
    rcases hplace with ⟨-, hp⟩ | ⟨-, -, hp⟩
    · exact busLegal_fail hp hheld (by rcases he with rfl | rfl <;> rfl) _
    · exact busLegal_fail hp hheld (by rcases he with rfl | rfl <;> rfl) _

theorem State.BusLegal.finishRx (h : s.BusLegal) (hbus : s.BusConsistent) (hr : s.ready = false)
    (hst : s.bstate = .receivingByte) : s.finishRx.BusLegal := by
  have hheld := hbus.held_of_not_ready hr
  obtain ⟨-, -, -, -, -, -, -, -, -, hmode, howed⟩ := hbus
  have hs : s.InBody := ⟨hheld, by simp [hst], by simp [hst]⟩
  have hp : busPhase s.history = some .owed := by
    simpa [State.bodyPhase, hmode hst, howed hst hr] using hs.busLegal_iff.mp h
  rcases finishRx_cases s with ⟨v, -, ht⟩ | ⟨-, ht⟩
  · have hbody : s.finishRx.InBody := by
      rw [ht]
      exact ⟨hheld, by simp, by simp [hst]⟩
    rw [hbody.busLegal_iff, ht]
    refine busPhase_append_event hp ?_
    simp only [State.bodyPhase, hmode hst, howed hst hr]
    cases s.rxack <;> rfl
  · rw [ht]
    exact busLegal_fail hp hheld rfl _

theorem State.BusLegal.completeStop (h : s.BusLegal) (hheld : s.held = true) (hst : s.bstate = .stopPending) :
    s.completeStop.BusLegal := by
  obtain ⟨p, hp, hplace⟩ := (busLegal_iff_of_stopping hheld hst).mp h
  rw [busLegal_iff_of_free rfl]
  refine busPhase_append_event hp ?_
  rcases hplace with rfl | rfl | rfl
  all_goals rfl

/-! A step of each engine agent. An update that touches neither the history nor the bus keeps the place by
definition. -/

theorem State.BusLegal.of_busStep (h : s.BusLegal) (hbus : s.BusConsistent) (hr : s.ready = false)
    (ht : busStep s = .next t) : t.BusLegal := by
  rcases busStep_cases ht with ⟨hst, rfl⟩ | ⟨hst, rfl⟩ | ⟨hst, rfl⟩
  · exact h.finishTx hbus hr hst
  · exact h.finishRx hbus hr hst
  · exact h.completeStop (hbus.held_of_not_ready hr) hst

theorem State.BusLegal.seqAddr (h : s.BusLegal) (hs : s.InBody) : s.seqAddr.BusLegal := by
  have hissued := h.issueTx hs s.addr (.inl rfl)
  unfold State.seqAddr
  split
  · exact hissued
  · exact hissued

theorem State.BusLegal.seqNext (h : s.BusLegal) : s.seqNext.BusLegal := by
  unfold State.seqNext
  dsimp only
  split
  · exact h
  · exact h

/-- The sequencer issues the stop after a written byte, or after the NACKed byte of a read: no byte is owed. -/
theorem State.Inv.legalStop_of_ssStop (h : s.Inv) (hs : s.sstep = .ssStop) (hr : s.ready = true)
    (hc : s.ceArmed = false) : s.legalStop = true := by
  have hseq := h.seq
  simp only [State.SequencerConsistent, hs] at hseq
  obtain ⟨hheld, hwrite, hread⟩ := hseq
  obtain ⟨-, -, -, -, -, -, -, -, hdata, -⟩ := h.bus
  rw [legalStop_eq_true_iff]
  refine ⟨hheld, fun ⟨hmode, howed⟩ => ?_⟩
  cases hd : s.sdir with
  | false =>
    have hst : s.bstate = .transmittingByte := by simpa [hc] using hwrite hd
    simp [hdata hst] at hmode
  | true =>
    obtain ⟨-, -, -, hpaid⟩ := hread hd
    simp [hpaid hr] at howed

theorem State.BusLegal.of_seqStep (h : s.BusLegal) (hinv : s.Inv) (hr : s.ready = true) (hc : s.ceArmed = false)
    (ht : seqStep s = .next t) : t.BusLegal := by
  have hseq := hinv.seq
  obtain ⟨-, hfree, -, -, -, -, -, haddr, -⟩ := hinv.bus
  unfold State.SequencerConsistent at hseq
  rcases seqStep_cases ht with ⟨hs, rfl⟩ | ⟨hs, rfl⟩ | ⟨hs, rfl⟩ | ⟨hs, rfl⟩ | ⟨hs, rfl⟩ | ⟨hs, rfl⟩ | ⟨hs, rfl⟩
  all_goals simp only [hs] at hseq
  · obtain ⟨-, hheld⟩ := hseq
    obtain ⟨-, -, hmode, -⟩ := hfree hheld
    exact h.issueStart hinv.bus hr (legalStart_eq_true_iff.mpr (by simp [hmode])) false
  · obtain ⟨-, hheld, -⟩ := hseq
    exact h.seqAddr (hinv.bus.inBody hheld hr)
  · obtain ⟨-, -, hst, -⟩ := hseq
    exact h.issueStart hinv.bus hr (legalStart_eq_true_iff.mpr (by simp [haddr hst])) true
  · obtain ⟨-, hheld, -⟩ := hseq
    exact h.issueRx (hinv.bus.inBody hheld hr) false
  · obtain ⟨hheld, -⟩ := hseq
    exact h.issueStop (hinv.bus.inBody hheld hr) (hinv.legalStop_of_ssStop hs hr hc)
  · exact h.seqNext
  · exact h

theorem State.BusLegal.of_ceStep (h : s.BusLegal) (hs : s.InBody) (ht : ceStep s = .next t) : t.BusLegal := by
  obtain ⟨-, ⟨-, rfl⟩ | ⟨-, rfl⟩⟩ := ceStep_cases ht
  · exact h.issueTx hs (s.mem.read s.ceAddress) (.inr rfl)
  · exact h

theorem State.Inv.held_of_ceArmed (h : s.Inv) (hc : s.ceArmed = true) : s.held = true := by
  have hseq := h.seq
  simp only [State.SequencerConsistent, h.sstep_of_ceArmed hc] at hseq
  exact hseq.left

theorem State.BusLegal.of_agentStep {a : Agent} (h : s.BusLegal) (hinv : s.Inv) (ha : s.enabledAgent = some a)
    (ht : agentStep a s = .next t) : t.BusLegal := by
  cases a with
  | bus => exact h.of_busStep hinv.bus (enabledAgent_eq_bus_iff.mp ha) ht
  | seq =>
    obtain ⟨-, hr, hc⟩ := enabledAgent_eq_seq_iff.mp ha
    exact h.of_seqStep hinv hr hc ht
  | ce =>
    obtain ⟨hc, hr, -⟩ := enabledAgent_eq_ce_iff.mp ha
    exact h.of_ceStep (hinv.bus.inBody (hinv.held_of_ceArmed hc) hr) ht

/-! A command, and the host's other steps but the reset input. -/

theorem State.BusLegal.accept (h : s.BusLegal) (dir : Bool) : (s.accept dir).BusLegal := by
  unfold State.accept
  split
  · exact h
  · exact h

theorem State.BusLegal.of_exec {i : Instr} (h : s.BusLegal) (hbus : s.BusConsistent) (ht : exec i s = .next t) :
    t.BusLegal := by
  rcases exec_cases ht with ⟨-, rfl⟩ | ⟨-, c, -, -, rfl⟩ | ⟨-, -, hr, hdone⟩
  · exact h
  · exact h
  · rcases hdone with ⟨-, hl, rfl⟩ | ⟨-, hl, rfl⟩ | ⟨-, hl, rfl⟩ | ⟨-, hl, rfl⟩ | ⟨-, hl, rfl⟩ | ⟨-, hl, rfl⟩ |
      ⟨-, hl, rfl⟩ | ⟨-, -, -, rfl⟩ | ⟨-, -, -, rfl⟩
    · exact h.issueStart hbus hr hl false
    · exact h.issueStart hbus hr hl true
    · exact h.issueTx (hbus.inBody (legalSend_eq_true_iff.mp hl).left hr) s.addr (.inl rfl)
    · exact h.issueTx (hbus.inBody (legalSend_eq_true_iff.mp hl).left hr) s.txdata (.inr rfl)
    · exact h.issueRx (hbus.inBody (legalRecv_eq_true_iff.mp hl).left hr) true
    · exact h.issueRx (hbus.inBody (legalRecv_eq_true_iff.mp hl).left hr) false
    · exact h.issueStop (hbus.inBody (legalStop_eq_true_iff.mp hl).left hr) hl
    · exact h.accept false
    · exact h.accept true

theorem State.BusLegal.writeCtrl (h : s.BusLegal) (v : Word) : (s.writeCtrl v).BusLegal := by
  unfold State.writeCtrl
  dsimp only
  split
  · exact h
  · exact h

theorem State.BusLegal.of_writeReg {r : Reg} {v : Word} (h : s.BusLegal) (hbus : s.BusConsistent)
    (ht : writeReg r v s = .next t) : t.BusLegal := by
  rcases writeReg_cases ht with ⟨-, hcmd⟩ | ⟨-, rfl⟩ | ⟨-, rfl⟩ | ⟨-, rfl⟩ | ⟨-, rfl⟩ | ⟨-, -, rfl⟩ | ⟨-, -, rfl⟩ |
    ⟨-, -, rfl⟩ | ⟨-, -, rfl⟩ | ⟨-, -, -, rfl⟩
  case inl =>
    rcases writeCmd_cases hcmd with ⟨i, -, hexec⟩ | ⟨-, rfl⟩
    · exact h.of_exec hbus hexec
    · exact h
  case inr.inl => exact h.writeCtrl v
  all_goals exact h

theorem State.BusLegal.of_hostStep {op : HostOp} (h : s.BusLegal) (hbus : s.BusConsistent)
    (hreset : ∀ d, op ≠ .reset d) (ht : hostStep op s = .next t) : t.BusLegal := by
  rcases hostStep_cases ht with ⟨w, o, r, -, -, rfl⟩ | ⟨w, o, v, r, -, -, hwrite⟩ | ⟨a, -, rfl⟩ | ⟨a, b, -, rfl⟩ |
    ⟨d, hop, -⟩
  · exact h
  · exact h.of_writeReg hbus hwrite
  · exact h
  · exact h
  · exact absurd hop (hreset d)

/-- Settles O53: a step of the enabled agent or of the host appends only an event that the grammar has at the place the
block's state goes with. -/
theorem everyStepKeepsTheBusGrammar : Obligations.EveryStepKeepsTheBusGrammar := by
  intro s t hinv h hreset hstep
  rcases step_cases hstep with ⟨i, rest, -, hdue, hhost⟩ | ⟨a, ins, ha, -, -, hagent⟩ | ⟨-, -, hstuck⟩
  · exact State.BusLegal.of_hostStep (s := { s with inputs := rest }) h hinv.bus
      (fun d hd => hreset ⟨d, hd ▸ hdue⟩) hhost
  · exact State.BusLegal.of_agentStep (s := { s with inputs := ins }) h (hinv.withInputs ins) ha hagent
  · cases hstuck

/-! The primitive commands (40_bus_primitive R114 to R121). -/

/-- A primitive command that passes checks 3 to 5 and 7 is performed. -/
theorem performUnless_primitive_of_accepted {legal : Bool} (act : State → State) (hen : s.en = true)
    (hidle : s.sbusy = false) (hr : s.ready = true) (hl : legal = true) :
    s.performUnless (s.primitiveError legal) act = .next (act s) :=
  performUnless_none (primitiveError_eq_none_iff.mpr ⟨hen, hidle, hr, hl⟩)

/-- What a primitive command leaves unchanged: all but the bus phase's state, the record and the error latch
(40_bus_primitive R128). -/
theorem exec_primitive_frame {i : Instr} (hw : i ≠ .xferW) (hx : i ≠ .xferR) (h : exec i s = .next t) :
    t = { s with
      bstate := t.bstate, held := t.held, rxmode := t.rxmode, mrecv := t.mrecv, ready := t.ready, shift := t.shift
      rxack := t.rxack, history := t.history, device := t.device, err := t.err, errcode := t.errcode } := by
  rcases exec_cases h with ⟨-, rfl⟩ | ⟨-, c, -, -, rfl⟩ | ⟨-, -, -, hdone⟩
  · rfl
  · rfl
  · rcases hdone with ⟨-, -, rfl⟩ | ⟨-, -, rfl⟩ | ⟨-, -, rfl⟩ | ⟨-, -, rfl⟩ | ⟨-, -, rfl⟩ | ⟨-, -, rfl⟩ |
      ⟨-, -, rfl⟩ | ⟨hi, -⟩ | ⟨hi, -⟩
    · rfl
    · rfl
    · rfl
    · rfl
    · rfl
    · rfl
    · rfl
    · exact absurd hi hw
    · exact absurd hi hx

/-- Settles O16: in the frame BYTE, DONE and the enables are the old ones, so a new interrupt comes from ERR. -/
theorem primitiveCommandFrame : Obligations.PrimitiveCommandFrame := by
  refine ⟨fun i s t hw hx h => ?_, fun s => Bool.eq_iff_iff.mpr (waitReadyHolds_iff s)⟩
  have hframe := exec_primitive_frame hw hx h
  have hbyte : (t.byte = true ∧ t.byteIe = true) = (s.byte = true ∧ s.byteIe = true) := by rw [hframe]
  have hdone : (t.done = true ∧ t.doneIe = true) = (s.done = true ∧ s.doneIe = true) := by rw [hframe]
  refine ⟨hframe, fun a => congrArg (Memory.read · a) (exec_mem h), fun hirq => ?_⟩
  rcases irq_eq_true_iff.mp hirq with hb | hd | he
  · exact .inl (irq_eq_true_iff.mpr (.inl (hbyte ▸ hb)))
  · exact .inl (irq_eq_true_iff.mpr (.inr (.inl (hdone ▸ hd))))
  · exact .inr he

/-- Settles O6: by definition; the word 0x0000 is NOP's. -/
theorem nopChangesNothing : Obligations.NopChangesNothing :=
  fun s => ⟨rfl, writeCmd_of_ok (decodeWord_encode .nop) s⟩

/-- Settles O7: the start passes its checks and `issue_start` is the state named. -/
theorem startCommandsComplete : Obligations.StartCommandsComplete := by
  intro s hen hidle hr hnotOwed
  have haccepted := primitiveError_eq_none_iff.mpr ⟨hen, hidle, hr, legalStart_eq_true_iff.mpr hnotOwed⟩
  exact ⟨exec_startW_of_accepted haccepted, exec_startR_of_accepted haccepted⟩

/-- Settles O8: the send passes its checks and `issue_tx` is the state named. -/
theorem sendCommandsComplete : Obligations.SendCommandsComplete := by
  intro s hen hidle hr hheld hmode
  have hl := legalSend_eq_true_iff.mpr ⟨hheld, hmode⟩
  exact ⟨performUnless_primitive_of_accepted (fun s => s.issueTx s.addr .addressing) hen hidle hr hl,
    performUnless_primitive_of_accepted (fun s => s.issueTx s.txdata .transmittingByte) hen hidle hr hl⟩

/-- Settles O9: the receive passes its checks and `issue_rx` is the state named. -/
theorem receiveCommandsComplete : Obligations.ReceiveCommandsComplete := by
  intro s hen hidle hr hheld hmode howed
  have hl := legalRecv_eq_true_iff.mpr ⟨hheld, hmode, howed⟩
  exact ⟨performUnless_primitive_of_accepted (State.issueRx · true) hen hidle hr hl,
    performUnless_primitive_of_accepted (State.issueRx · false) hen hidle hr hl⟩

/-- Settles O10: the stop passes its checks and `issue_stop` is the state named. -/
theorem stopCommandCompletes : Obligations.StopCommandCompletes := by
  intro s hen hidle hr hheld hnotOwed
  exact performUnless_primitive_of_accepted State.issueStop hen hidle hr
    (legalStop_eq_true_iff.mpr ⟨hheld, hnotOwed⟩)

theorem controlByte_extractLsb'_one (sl : BitVec 7) (rw : Bool) : (controlByte sl rw).extractLsb' 1 7 = sl := by
  have hsl := sl.isLt
  have hrw := Bool.toNat_lt rw
  apply BitVec.eq_of_toNat_eq
  rw [BitVec.extractLsb'_toNat, controlByte, toNat_append_eq_add, BitVec.toNat_ofBool, Nat.shiftRight_eq_div_pow]
  omega

/-- Settles O27: the byte is the address's seven bits over the direction's one. -/
theorem controlByteLayout : Obligations.ControlByteLayout :=
  fun sl rw => ⟨controlByte_extractLsb'_one sl rw,
    (BitVec.getLsbD_eq_getElem (by decide)).trans (controlByte_getElem_zero sl rw)⟩

/-! The enabled agent (00_scope R9). -/

/-- While the host waits, the step is the enabled agent's, and the host's next input waits one engine step less. -/
theorem step_of_not_due {a : Agent} (ha : s.enabledAgent = some a) (hdue : s.dueOp = none) :
    (s.inputs = [] ∧ step s = agentStep a s) ∨
    (∃ i rest, s.inputs = i :: rest ∧ 0 < i.after ∧
      step s = agentStep a { s with inputs := { i with after := i.after - 1 } :: rest }) := by
  cases hi : s.inputs with
  | nil => exact .inl ⟨rfl, step_of_no_inputs hi ha⟩
  | cons i rest =>
    have hwait : i.after ≠ 0 := by
      intro hzero
      simp [State.dueOp, hi, ha, hzero] at hdue
    refine .inr ⟨i, rest, rfl, Nat.pos_of_ne_zero hwait, ?_⟩
    simp only [step, nextStep, hi, ha, if_neg hwait]

/-- Settles O33: one condition for each agent, and the agent's step while the host waits. -/
theorem enabledAgents : Obligations.EnabledAgents :=
  fun _ => ⟨enabledAgent_eq_bus_iff, enabledAgent_eq_seq_iff, enabledAgent_eq_ce_iff, fun _ => step_of_not_due⟩

/-! The completion of a phase (40_bus_primitive R122 to R126). -/

theorem busStep_of_transmit
    (hst : s.bstate = .startPending ∨ s.bstate = .addressing ∨ s.bstate = .transmittingByte) :
    busStep s = .next s.finishTx := by
  rcases hst with hst | hst | hst
  all_goals simp only [busStep, hst]

/-- Settles O34: the phase finishes with the slave's answer, and `completeTx` of each answer is the state named. -/
theorem transmitCompletion : Obligations.TransmitCompletion := by
  intro s a d _ hst hanswer
  have hstep : agentStep .bus s = .next (({ s with device := d } : State).completeTx a) := by
    rw [agentStep, busStep_of_transmit hst, State.finishTx, hanswer]
  refine ⟨?_, ?_, ?_⟩
  all_goals
    rintro rfl
    exact hstep

/-- Settles O35: the phase finishes with the slave's answer, and `completeRx` of each answer is the state named. -/
theorem receiveCompletion : Obligations.ReceiveCompletion := by
  intro s a d _ hst hanswer
  have hstep : agentStep .bus s = .next (({ s with device := d } : State).completeRx a) := by
    simp only [agentStep, busStep, hst, State.finishRx, hanswer]
  refine ⟨?_, ?_⟩
  · rintro v rfl
    exact hstep
  · rintro rfl
    exact hstep

/-- Settles O36: a stop phase takes no answer, and `completeStop` is the state named. -/
theorem stopCompletion : Obligations.StopCompletion := by
  intro s _ hst
  have hstep : agentStep .bus s = .next s.completeStop := by
    simp only [agentStep, busStep, hst]
  exact hstep

end Sys2Proof.Machine
end

section
/-! Proofs about single steps of a block transfer (41_block_transfer R161 to R174, R179): the acceptance of a request,
the actions of the sequencer and of the copy engine, and what a host step can do while a transfer is active. -/

namespace Sys2Proof.Machine

variable {s t : State}

/-! Acceptance (41_block_transfer R161 to R163). -/

theorem accept_of_count_eq_zero (h : s.count = 0) (dir : Bool) :
    s.accept dir = { s with sdir := dir, completed := 0, byte := false, done := true } :=
  if_pos (by simp [h])

theorem accept_of_count_ne_zero (h : s.count ≠ 0) (dir : Bool) :
    s.accept dir = { s with
      sdir := dir, completed := 0, byte := false, done := false, sbusy := true, sstep := .ssStart } :=
  if_neg fun hzero => h (BitVec.eq_of_toNat_eq hzero)

theorem exec_xferW_of_accepted (h : s.transferError = none) : exec .xferW s = .next (s.accept false) :=
  performUnless_none (act := fun s => s.accept false) h

theorem exec_xferR_of_accepted (h : s.transferError = none) : exec .xferR s = .next (s.accept true) :=
  performUnless_none (act := fun s => s.accept true) h

/-- Settles O11: the request passes every check, and `accept` takes the branch of its COUNT. -/
theorem transferCommandsComplete : Obligations.TransferCommandsComplete := by
  intro s hen hidle hr hfree hcells hbuffer
  have haccepted := transferError_eq_none_iff.mpr
    ⟨hen, hidle, hr, hfree, requestOutOfRange_eq_false_iff.mpr ⟨hcells, hbuffer⟩⟩
  rw [exec_xferW_of_accepted haccepted, exec_xferR_of_accepted haccepted]
  refine ⟨fun hzero => ?_, fun hcount => ?_⟩
  · simp only [accept_of_count_eq_zero hzero, and_self]
  · simp only [accept_of_count_ne_zero hcount, and_self]

/-- A transfer command raises the error of a failing check, or accepts its request. -/
theorem exec_transfer_cases {i : Instr} (hi : i = .xferW ∨ i = .xferR) (h : exec i s = .next t) :
    (∃ c, t = s.raise c) ∨
    (s.transferError = none ∧ t = s.accept (decide (i = .xferR))) := by
  have performed : s.performUnless s.transferError (fun s => s.accept (decide (i = .xferR))) = .next t := by
    rcases hi with rfl | rfl
    · exact h
    · exact h
  exact (performUnless_cases performed).imp_left fun ⟨c, hc⟩ => ⟨c, hc.right⟩

/-- Settles O17: a rejection changes the error latch alone, and an acceptance what `accept` sets. -/
theorem transferCommandFrame : Obligations.TransferCommandFrame := by
  intro i s t hi h
  refine ⟨?_, fun a => congrArg (Memory.read · a) (exec_mem h)⟩
  rcases exec_transfer_cases hi h with ⟨c, rfl⟩ | ⟨-, rfl⟩
  · rfl
  · unfold State.accept
    split
    · rfl
    · rfl

/-! The sequencer (41_block_transfer R165 to R171). -/

theorem State.Inv.held_of_ssStart (h : s.Inv) (hs : s.sstep = .ssStart) : s.held = false := by
  have hseq := h.seq
  simp only [State.SequencerConsistent, hs] at hseq
  exact hseq.right

theorem State.Inv.held_of_ssRestart (h : s.Inv) (hs : s.sstep = .ssRestart) : s.held = true := by
  have hseq := h.seq
  simp only [State.SequencerConsistent, hs] at hseq
  exact hseq.right.left

theorem seqAddr_of_write (hd : s.sdir = false) :
    s.seqAddr = { s with
      shift := s.addr, bstate := .addressing, ready := false, ceArmed := true, sstep := .ssStop } :=
  if_pos hd

theorem seqAddr_of_read (hd : s.sdir = true) :
    s.seqAddr = { s with shift := s.addr, bstate := .addressing, ready := false, sstep := .ssRestart } :=
  if_neg (by simp [hd])

/-- Settles O37: each action is the issue of its phase; the bus is free at the first start and held at the second. -/
theorem sequencerIssuesPhases : Obligations.SequencerIssuesPhases := by
  intro s h _
  refine ⟨fun hs => ?_, fun hs hd => ?_, fun hs hd => ?_, fun hs => ?_, fun hs => ?_, fun hs => ?_⟩
  all_goals simp only [agentStep, seqStep, hs]
  · simp only [State.seqStart, State.issueStart, State.emit, h.held_of_ssStart hs, if_true]
    rfl
  · rw [seqAddr_of_write hd]
  · rw [seqAddr_of_read hd]
  · simp only [State.seqRestart, State.issueStart, State.emit, h.held_of_ssRestart hs, Bool.true_eq_false, if_false]
    rfl
  · rfl
  · rfl

/-- One byte counted with more to come: the next byte's transaction starts (41_block_transfer R170). -/
theorem seqNext_of_lt (h : (s.completed + 1).toNat < s.count.toNat) :
    s.seqNext = { s with
      completed := s.completed + 1, addr := s.addr + 1, byte := true, sstep := .ssStart } :=
  if_pos h

/-- The last byte counted: the request is done (41_block_transfer R170). -/
theorem seqNext_of_not_lt (h : ¬(s.completed + 1).toNat < s.count.toNat) :
    s.seqNext = { s with
      completed := s.completed + 1, addr := s.addr + 1, byte := true, done := true, sbusy := false
      sstep := .ssIdle } :=
  if_neg h

/-- The byte being counted is one the request asked for: COMPLETED does not wrap. -/
theorem State.RequestConsistent.toNat_completed_succ (h : s.RequestConsistent) (hbusy : s.sbusy = true) :
    (s.completed + 1).toNat = s.completed.toNat + 1 := by
  obtain ⟨hlt, -⟩ := h hbusy
  bv_omega

/-- Settles O38: SS_NEXT takes the branch of the new value of COMPLETED, which the request bounds. -/
theorem sequencerCountsBytes : Obligations.SequencerCountsBytes := by
  intro s h ha
  obtain ⟨hbusy, -, -⟩ := enabledAgent_eq_seq_iff.mp ha
  have hcounted := h.request.toNat_completed_succ hbusy
  have hcompleted : s.completed + 1 = BitVec.ofNat 16 (s.completed.toNat + 1) := by
    rw [← hcounted, BitVec.ofNat_toNat, BitVec.setWidth_eq]
  refine ⟨fun hs hlt => ?_, fun hs heq => ?_, fun hs => ?_⟩
  all_goals simp only [agentStep, seqStep, hs]
  · rw [seqNext_of_lt (by omega), hcompleted, ptr_succ]
  · have hlast : s.completed + 1 = s.count := BitVec.eq_of_toNat_eq (hcounted.trans heq)
    rw [seqNext_of_not_lt (by omega), hlast, ptr_succ]
  · rfl

/-! The copy engine (41_block_transfer R172 to R174). -/

theorem ceStep_of_write (hd : s.sdir = false) (ha : s.ceAddress < Config.sysMemSize) :
    ceStep s = .next { s with
      txdata := s.mem.read s.ceAddress, shift := s.mem.read s.ceAddress, ceArmed := false
      bstate := .transmittingByte, ready := false } := by
  simp only [ceStep, ceMoveWrite, hd, ha, if_true]
  rfl

theorem ceStep_of_read (hd : s.sdir = true) (ha : s.ceAddress < Config.sysMemSize) :
    ceStep s = .next { s with mem := s.mem.write s.ceAddress s.rxdata, ceArmed := false } := by
  simp only [ceStep, ceMoveRead, hd, ha, Bool.true_eq_false, if_true, if_false]

/-- Settles O39: an armed copy engine serves an active request, whose next buffer byte is in system memory; the memory
laws say what its write changes. -/
theorem copyEngineMoves : Obligations.CopyEngineMoves := by
  intro s h ha
  obtain ⟨hc, -, -⟩ := enabledAgent_eq_ce_iff.mp ha
  have haddress := h.ceAddress_lt (h.sbusy_of_ceArmed hc)
  refine ⟨haddress, fun hd => ceStep_of_write hd haddress, fun hd => ?_⟩
  exact ⟨_, ceStep_of_read hd haddress, rfl, Memory.read_write_eq _ _ _ _ h.memory,
    fun a hne => Memory.read_write_ne _ _ _ _ _ h.memory hne⟩

/-! Host steps under an active transfer (41_block_transfer R179). -/

theorem busyError_of_sbusy (hbusy : s.sbusy = true) : s.busyError = some .requestRejected := by
  unfold State.busyError
  rw [if_pos hbusy, ite_self]

theorem primitiveError_of_sbusy (hbusy : s.sbusy = true) (legal : Bool) :
    s.primitiveError legal = some .requestRejected := by
  simp only [State.primitiveError, busyError_of_sbusy hbusy]

theorem transferError_of_sbusy (hbusy : s.sbusy = true) : s.transferError = some .requestRejected := by
  simp only [State.transferError, busyError_of_sbusy hbusy]

/-- While a transfer is active every command but NOP is rejected (30_encoding R97 check 4). -/
theorem exec_of_sbusy {i : Instr} (hbusy : s.sbusy = true) (hi : i ≠ .nop) :
    exec i s = .next (s.raise .requestRejected) := by
  have hassigned := opcodeOf_lt i
  have hnop : (opcodeOf i).toNat ≠ 0 := fun hzero => hi (eq_nop_of_opcodeOf_eq_zero hzero)
  have hkind : (1 ≤ (opcodeOf i).toNat ∧ (opcodeOf i).toNat ≤ 7) ∨ (opcodeOf i).toNat = 0x8 ∨
    (opcodeOf i).toNat = 0x9 := by omega
  rcases hkind with ⟨hlo, hhi⟩ | htransfer
  · rw [exec_primitive hlo hhi, primitiveError_of_sbusy hbusy]
    rfl
  · rw [exec_transfer htransfer, transferError_of_sbusy hbusy]
    rfl

/-- A CMD write while a transfer is active does nothing or raises an error. -/
theorem writeCmd_of_sbusy {w : Word} (hbusy : s.sbusy = true) (ht : writeCmd w s = .next t) :
    t = s ∨ ∃ c, t = s.raise c := by
  rcases writeCmd_cases ht with ⟨i, -, hexec⟩ | ⟨-, rfl⟩
  · rcases exec_cases hexec with ⟨-, rfl⟩ | ⟨-, c, -, -, rfl⟩ | ⟨-, hidle, -, -⟩
    · exact .inl rfl
    · exact .inr ⟨c, rfl⟩
    · simp [hbusy] at hidle
  · exact .inr ⟨_, rfl⟩

/-- What a host step may change while a transfer is active (41_block_transfer R179), memory apart. -/
structure SpectatorFrame (s t : State) : Prop where
  frame : t = { s with
    byteIe := t.byteIe, doneIe := t.doneIe, errIe := t.errIe, byte := t.byte, done := t.done, err := t.err
    errcode := t.errcode, hostData := t.hostData, mem := t.mem }
  byte  : t.byte = true → s.byte = true
  done  : t.done = true → s.done = true

theorem spectatorFrame_raise (s : State) (e : ErrCode) : SpectatorFrame s (s.raise e) := ⟨rfl, id, id⟩

theorem spectatorFrame_acknowledge (s : State) (v : Word) : SpectatorFrame s (s.acknowledge v) := by
  refine ⟨rfl, ?_, ?_⟩
  all_goals simp [State.acknowledge]

/-- EN stays 1 while a transfer is active (10_state R22). -/
theorem State.Inv.spectatorFrame_writeCtrl (h : s.Inv) (hbusy : s.sbusy = true) (v : Word) :
    SpectatorFrame s (s.writeCtrl v) := by
  unfold State.writeCtrl
  dsimp only
  split
  case isTrue => exact ⟨rfl, id, id⟩
  case isFalse hkept =>
    have hen := h.enabled (.inl hbusy)
    have hv : v.getLsbD 0 = s.en := by
      by_contra hne
      exact hkept ⟨by simpa [hen] using hne, hen, .inl hbusy⟩
    rw [hv]
    exact ⟨rfl, id, id⟩

theorem State.Inv.spectatorFrame_writeReg {r : Reg} {v : Word} (h : s.Inv) (hbusy : s.sbusy = true)
    (ht : writeReg r v s = .next t) : SpectatorFrame s t := by
  rcases writeReg_cases ht with ⟨-, hcmd⟩ | ⟨-, rfl⟩ | ⟨-, rfl⟩ | ⟨-, rfl⟩ | ⟨-, rfl⟩ | ⟨-, hidle, -⟩ |
    ⟨-, hidle, -⟩ | ⟨-, hidle, -⟩ | ⟨-, hidle, -⟩ | ⟨-, hidle, -⟩
  · rcases writeCmd_of_sbusy hbusy hcmd with rfl | ⟨c, rfl⟩
    · exact ⟨rfl, id, id⟩
    · exact spectatorFrame_raise s c
  · exact h.spectatorFrame_writeCtrl hbusy v
  · exact spectatorFrame_acknowledge s v
  · exact ⟨rfl, id, id⟩
  · exact spectatorFrame_raise s _
  all_goals simp [hbusy] at hidle

theorem State.Inv.spectatorFrame_hostStep {op : HostOp} (h : s.Inv) (hbusy : s.sbusy = true)
    (hreset : ∀ d, op ≠ .reset d) (ht : hostStep op s = .next t) : SpectatorFrame s t := by
  rcases hostStep_cases ht with ⟨w, o, r, -, -, rfl⟩ | ⟨w, o, v, r, -, -, hwrite⟩ | ⟨a, -, rfl⟩ | ⟨a, b, -, rfl⟩ |
    ⟨d, hop, -⟩
  · exact ⟨rfl, id, id⟩
  · exact h.spectatorFrame_writeReg hbusy hwrite
  · exact ⟨rfl, id, id⟩
  · exact ⟨rfl, id, id⟩
  · exact absurd hop (hreset d)

/-- Settles O52: the frame of every host step while a transfer is active, the rejection of every command and the locked
branch of every request register's write. -/
theorem singleFlight : Obligations.SingleFlight := by
  intro s t op h hbusy hreset ht
  obtain ⟨hframe, hbyte, hdone⟩ := h.spectatorFrame_hostStep hbusy hreset ht
  refine ⟨hframe, hbyte, hdone, fun hop => ?_, fun i hi hop => ?_, fun o ho v hop => ?_⟩
  · rcases hostStep_mem_cases ht with hmem | ⟨a, b, hwrite, -⟩
    · exact hmem
    · exact absurd hwrite (hop a b)
  · subst hop
    have hrejected := (writeCmd_of_ok (decodeWord_encode i) s).trans (exec_of_sbusy hbusy hi)
    exact Host.Outcome.next.inj (ht.symm.trans hrejected)
  · subst hop
    obtain ⟨hrequest, hslave⟩ := lockedWritesAreRejected s v
    have hlocked : hostStep (.write .w16 o v) s = .next { s with err := true, errcode := .requestRejected } := by
      rcases List.mem_append.mp (show o ∈ [0x06, 0x08, 0x0C, 0x0E] ++ [0x12] from ho) with hmem | hmem
      · exact hrequest hbusy o hmem
      · obtain rfl := List.mem_singleton.mp hmem
        exact hslave (.inl hbusy)
    exact Host.Outcome.next.inj (ht.symm.trans hlocked)

end Sys2Proof.Machine
end

section
/-! Proofs about runs (00_scope R9, R10) and about host steps beside an active transfer (41_block_transfer R179;
20_memory R71): a run splits into runs, it keeps the invariant, and an engine step does the same to two states that
differ only in what the host may change. -/

namespace Sys2Proof.Machine

variable {s t u x : State} {a : Agent}

/-! Runs. -/

theorem exists_step_of_runState_succ {k : Nat} (h : runState (k + 1) s = some t) :
    ∃ u, step s = .next u ∧ runState k u = some t := by
  cases hs : step s with
  | next u => exact ⟨u, rfl, (runState_succ hs).symm.trans h⟩
  | fault f | refused f =>
    unfold runState at h
    simp only [Host.Core.run] at h
    rw [show Host.Core.step core s = _ from hs] at h
    cases h

theorem runState_add {m : Nat} (n : Nat) (h : runState m s = some t) : runState (m + n) s = runState n t := by
  induction m generalizing s with
  | zero =>
    cases h
    rw [Nat.zero_add]
  | succ m ih =>
    obtain ⟨u, hstep, hrun⟩ := exists_step_of_runState_succ h
    rw [Nat.succ_add, runState_succ hstep, ih hrun]

theorem State.Inv.of_runState {k : Nat} (h : s.Inv) (hrun : runState k s = some t) : t.Inv := by
  induction k generalizing s with
  | zero =>
    cases hrun
    exact h
  | succ k ih =>
    obtain ⟨u, hstep, hrun⟩ := exists_step_of_runState_succ hrun
    exact ih (everyStepKeepsTheInvariant s u h hstep) hrun

/-! What an engine step does to the transfer in progress. -/

/-- What a step of the engine agent `a` keeps of the transfer in progress: its direction and the host's coming steps,
and, but for SS_NEXT and SS_ABORT, the request's flags and COMPLETED; an abort begins with a BusTimeout
(40_bus_primitive R126). -/
structure TransferFrame (a : Agent) (s t : State) : Prop where
  inputs : t.inputs = s.inputs
  sdir   : t.sdir = s.sdir
  flags  : (t.sbusy = s.sbusy ∧ t.byte = s.byte ∧ t.done = s.done ∧ t.completed = s.completed ∧
      (t.sstep = .ssAbort → s.sstep = .ssAbort ∧ t.err = s.err ∧ t.errcode = s.errcode ∨
        t.err = true ∧ t.errcode = .busTimeout)) ∨
    (a = .seq ∧ s.sstep = .ssNext ∧ t = s.seqNext) ∨ (a = .seq ∧ s.sstep = .ssAbort ∧ t = s.seqAbort)

theorem transferFrame_of_sstep_eq (hinputs : t.inputs = s.inputs) (hsdir : t.sdir = s.sdir)
    (hflags : t.sbusy = s.sbusy ∧ t.byte = s.byte ∧ t.done = s.done ∧ t.completed = s.completed)
    (hlatch : t.sstep ≠ .ssAbort ∨ t.sstep = s.sstep ∧ t.err = s.err ∧ t.errcode = s.errcode) :
    TransferFrame a s t := by
  obtain ⟨hbusy, hbyte, hdone, hcompleted⟩ := hflags
  refine ⟨hinputs, hsdir, .inl ⟨hbusy, hbyte, hdone, hcompleted, fun habort => .inl ?_⟩⟩
  obtain ⟨hs, herr⟩ := hlatch.resolve_left (not_not.mpr habort)
  exact ⟨hs ▸ habort, herr⟩

theorem failed_transferFrame (s : State) (d : Device) (es : List BusEvent) :
    TransferFrame a s ({ s with device := d, history := es } : State).fail :=
  ⟨rfl, rfl, .inl ⟨rfl, rfl, rfl, rfl, fun _ => .inr ⟨rfl, rfl⟩⟩⟩

theorem busStep_transferFrame (h : busStep s = .next t) : TransferFrame .bus s t := by
  rcases busStep_cases h with ⟨-, rfl⟩ | ⟨-, rfl⟩ | ⟨-, rfl⟩
  · rcases finishTx_cases s with ⟨ht, -⟩ | ⟨e, -, ht, -⟩
    · exact ht ▸ transferFrame_of_sstep_eq rfl rfl ⟨rfl, rfl, rfl, rfl⟩ (.inr ⟨rfl, rfl, rfl⟩)
    · exact ht ▸ failed_transferFrame s _ _
  · rcases finishRx_cases s with ⟨v, -, ht⟩ | ⟨-, ht⟩
    · exact ht ▸ transferFrame_of_sstep_eq rfl rfl ⟨rfl, rfl, rfl, rfl⟩ (.inr ⟨rfl, rfl, rfl⟩)
    · exact ht ▸ failed_transferFrame s _ _
  · exact transferFrame_of_sstep_eq rfl rfl ⟨rfl, rfl, rfl, rfl⟩ (.inr ⟨rfl, rfl, rfl⟩)

theorem seqStep_transferFrame (h : seqStep s = .next t) : TransferFrame .seq s t := by
  rcases seqStep_cases h with ⟨-, rfl⟩ | ⟨-, rfl⟩ | ⟨-, rfl⟩ | ⟨-, rfl⟩ | ⟨-, rfl⟩ | ⟨hs, rfl⟩ | ⟨hs, rfl⟩
  case inr.inl =>
    unfold State.seqAddr
    split
    · exact transferFrame_of_sstep_eq rfl rfl ⟨rfl, rfl, rfl, rfl⟩ (.inl (by simp))
    · exact transferFrame_of_sstep_eq rfl rfl ⟨rfl, rfl, rfl, rfl⟩ (.inl (by simp))
  case inr.inr.inr.inr.inr.inl =>
    refine ⟨?_, ?_, .inr (.inl ⟨rfl, hs, rfl⟩)⟩
    all_goals
      unfold State.seqNext
      dsimp only
      split <;> rfl
  case inr.inr.inr.inr.inr.inr => exact ⟨rfl, rfl, .inr (.inr ⟨rfl, hs, rfl⟩)⟩
  all_goals
    exact transferFrame_of_sstep_eq rfl rfl ⟨rfl, rfl, rfl, rfl⟩
      (.inl (by simp [State.seqStart, State.seqRestart, State.seqRdata, State.seqStop]))

theorem ceStep_transferFrame (h : ceStep s = .next t) : TransferFrame .ce s t := by
  obtain ⟨-, ⟨-, rfl⟩ | ⟨-, rfl⟩⟩ := ceStep_cases h
  · exact transferFrame_of_sstep_eq rfl rfl ⟨rfl, rfl, rfl, rfl⟩ (.inr ⟨rfl, rfl, rfl⟩)
  · exact transferFrame_of_sstep_eq rfl rfl ⟨rfl, rfl, rfl, rfl⟩ (.inr ⟨rfl, rfl, rfl⟩)

theorem agentStep_transferFrame (h : agentStep a s = .next t) : TransferFrame a s t := by
  cases a with
  | bus => exact busStep_transferFrame h
  | seq => exact seqStep_transferFrame h
  | ce => exact ceStep_transferFrame h

theorem agentStep_inputs (h : agentStep a s = .next t) : t.inputs = s.inputs :=
  (agentStep_transferFrame h).inputs

/-! An engine step of two states that differ only in what the host may change. -/

/-- The transfer of `s` beside what `x` holds of all that host steps may change under it (41_block_transfer R179). -/
def State.withHostPart (s x : State) : State :=
  { s with
    byteIe := x.byteIe, doneIe := x.doneIe, errIe := x.errIe, byte := x.byte, done := x.done, err := x.err
    errcode := x.errcode, hostData := x.hostData, inputs := x.inputs, mem := x.mem }

/-- In `x` the bytes of the buffer of `s` read as they do in `s`. -/
def State.SameBuffer (s x : State) : Prop :=
  ∀ k, k < s.count.toNat → x.mem.read (s.bufptr.toNat + k) = s.mem.read (s.bufptr.toNat + k)

theorem sameTransfer_iff : t.SameTransfer s ↔ t = s.withHostPart t ∧ s.SameBuffer t := Iff.rfl

/-- The host's coming steps are no part of the transfer. -/
theorem State.SameTransfer.withInputs (h : t.SameTransfer s) (ins : List Input) :
    ({ t with inputs := ins } : State).SameTransfer s :=
  ⟨congrArg (fun v : State => { v with inputs := ins }) h.left, h.right⟩

theorem State.SameTransfer.enabledAgent_eq (h : t.SameTransfer s) : t.enabledAgent = s.enabledAgent := by
  rw [h.left]
  rfl

theorem State.SameTransfer.sbusy_eq (h : t.SameTransfer s) : t.sbusy = s.sbusy := by
  rw [h.left]

theorem State.SameBuffer.finishTx (h : s.SameBuffer x) : (s.withHostPart x).finishTx.SameTransfer s.finishTx := by
  simp only [State.finishTx, State.withHostPart]
  cases (s.device.answerTx s.shift).1 with
  | ack | nack | late => exact ⟨rfl, h⟩

theorem State.SameBuffer.finishRx (h : s.SameBuffer x) : (s.withHostPart x).finishRx.SameTransfer s.finishRx := by
  simp only [State.finishRx, State.withHostPart]
  cases s.device.answerRx.1 with
  | data v => exact ⟨rfl, h⟩
  | late => exact ⟨rfl, h⟩

theorem State.SameBuffer.busStep (h : s.SameBuffer x) (ht : busStep (s.withHostPart x) = .next t) :
    ∃ u, busStep s = .next u ∧ t.SameTransfer u := by
  rcases busStep_cases ht with ⟨hst, rfl⟩ | ⟨hst, rfl⟩ | ⟨hst, rfl⟩
  · exact ⟨_, busStep_of_transmit hst, h.finishTx⟩
  · exact ⟨s.finishRx, by simp only [Machine.busStep, show s.bstate = _ from hst], h.finishRx⟩
  · exact ⟨s.completeStop, by simp only [Machine.busStep, show s.bstate = _ from hst], rfl, h⟩

theorem State.SameBuffer.seqAddr (h : s.SameBuffer x) : (s.withHostPart x).seqAddr.SameTransfer s.seqAddr := by
  cases hd : s.sdir with
  | false =>
    rw [seqAddr_of_write hd, seqAddr_of_write (s := s.withHostPart x) hd]
    exact ⟨rfl, h⟩
  | true =>
    rw [seqAddr_of_read hd, seqAddr_of_read (s := s.withHostPart x) hd]
    exact ⟨rfl, h⟩

theorem State.SameBuffer.seqNext (h : s.SameBuffer x) : (s.withHostPart x).seqNext.SameTransfer s.seqNext := by
  by_cases hlt : (s.completed + 1).toNat < s.count.toNat
  · rw [seqNext_of_lt hlt, seqNext_of_lt (s := s.withHostPart x) hlt]
    exact ⟨rfl, h⟩
  · rw [seqNext_of_not_lt hlt, seqNext_of_not_lt (s := s.withHostPart x) hlt]
    exact ⟨rfl, h⟩

theorem State.SameBuffer.seqStep (h : s.SameBuffer x) (ht : seqStep (s.withHostPart x) = .next t) :
    ∃ u, seqStep s = .next u ∧ t.SameTransfer u := by
  unfold Machine.seqStep
  rcases seqStep_cases ht with ⟨hs, rfl⟩ | ⟨hs, rfl⟩ | ⟨hs, rfl⟩ | ⟨hs, rfl⟩ | ⟨hs, rfl⟩ | ⟨hs, rfl⟩ | ⟨hs, rfl⟩
  all_goals
    replace hs : s.sstep = _ := hs
    simp only [hs]
  case inr.inl => exact ⟨_, rfl, h.seqAddr⟩
  case inr.inr.inr.inr.inr.inl => exact ⟨_, rfl, h.seqNext⟩
  all_goals exact ⟨_, rfl, rfl, h⟩

/-- The copy engine reads and writes buffer byte COMPLETED, which is the same byte in both. -/
theorem State.SameBuffer.ceStep (h : s.SameBuffer x) (hinside : s.completed.toNat < s.count.toNat)
    (hs : s.mem.wf Config.sysMemSize = true) (hx : x.mem.wf Config.sysMemSize = true)
    (ht : ceStep (s.withHostPart x) = .next t) : ∃ u, ceStep s = .next u ∧ t.SameTransfer u := by
  have hbyte : (s.withHostPart x).mem.read (s.withHostPart x).ceAddress = s.mem.read s.ceAddress := h _ hinside
  obtain ⟨haddress, ⟨hd, rfl⟩ | ⟨hd, rfl⟩⟩ := ceStep_cases ht
  · rw [hbyte]
    exact ⟨_, ceStep_of_write hd haddress, rfl, h⟩
  · refine ⟨_, ceStep_of_read hd haddress, rfl, fun k hk => ?_⟩
    show (x.mem.write s.ceAddress s.rxdata).read _ = (s.mem.write s.ceAddress s.rxdata).read _
    by_cases hsame : s.bufptr.toNat + k = s.ceAddress
    · rw [hsame, Memory.read_write_eq _ _ _ _ hx, Memory.read_write_eq _ _ _ _ hs]
    · rw [Memory.read_write_ne _ _ _ _ _ hx hsame, Memory.read_write_ne _ _ _ _ _ hs hsame]
      exact h k hk

/-- The step that the enabled agent makes of one state it makes of any other with the same transfer. -/
theorem State.SameTransfer.agentStep (h : s.SameTransfer u) (hs : s.Inv) (hu : u.Inv) (hbusy : u.sbusy = true)
    (ht : agentStep a s = .next t) : ∃ v, agentStep a u = .next v ∧ t.SameTransfer v := by
  obtain ⟨hpart, hbuffer⟩ := sameTransfer_iff.mp h
  obtain ⟨hinside, -⟩ := hu.request hbusy
  rw [hpart] at ht
  cases a with
  | bus => exact hbuffer.busStep ht
  | seq => exact hbuffer.seqStep ht
  | ce => exact hbuffer.ceStep hinside hu.memory hs.memory ht

/-! Host steps beside an active transfer. -/

/-- A host step that spares the buffer leaves the transfer the same. -/
theorem State.SameTransfer.hostStep {op : HostOp} (h : s.SameTransfer u) (hs : s.Inv) (hbusy : s.sbusy = true)
    (hspares : op.sparesBuffer s.bufptr s.count) (ht : hostStep op s = .next t) : t.SameTransfer u := by
  obtain ⟨hpart, hbuffer⟩ := sameTransfer_iff.mp h
  have hreset : ∀ d, op ≠ .reset d := by
    rintro d rfl
    exact hspares
  obtain ⟨hframe, -, -⟩ := hs.spectatorFrame_hostStep hbusy hreset ht
  refine sameTransfer_iff.mpr ⟨?_, fun k hk => ?_⟩
  · have hinputs : t.inputs = s.inputs := by rw [hframe]
    refine hframe.trans ?_
    rw [hpart]
    simp only [State.withHostPart, hinputs]
  · have hcount : s.count = u.count := by rw [hpart]; rfl
    have hbufptr : s.bufptr = u.bufptr := by rw [hpart]; rfl
    rw [hcount, hbufptr] at hspares
    rw [← hbuffer k hk]
    rcases hostStep_mem_cases ht with hmem | ⟨c, b, rfl, hmem⟩
    · rw [hmem]
    · simp only [HostOp.sparesBuffer] at hspares
      rw [hmem, Memory.read_write_ne _ _ _ _ _ hs.memory (by omega)]

theorem State.HostSparesBuffer.of_step (h : s.HostSparesBuffer) (hbufptr : t.bufptr = s.bufptr)
    (hcount : t.count = s.count) (hops : t.inputs.map Input.op ⊆ s.inputs.map Input.op) : t.HostSparesBuffer := by
  intro i hi
  obtain ⟨j, hj, hop⟩ := List.mem_map.mp (hops (List.mem_map_of_mem hi))
  rw [hbufptr, hcount, ← hop]
  exact h j hj

/-- The run with host steps beside the run without them, from two states with the same transfer. -/
theorem exists_run_sameTransfer {k : Nat} (h : s.SameTransfer u) (hs : s.Inv) (hu : u.Inv) (hui : u.inputs = [])
    (hspares : s.HostSparesBuffer) (hrun : runState k s = some t)
    (hbusy : ∀ j v, j < k → runState j s = some v → v.sbusy = true) :
    ∃ j v, runState j u = some v ∧ t.SameTransfer v ∧ j + s.inputs.length = k + t.inputs.length := by
  induction k generalizing s u with
  | zero =>
    cases hrun
    exact ⟨0, u, rfl, h, rfl⟩
  | succ k ih =>
    obtain ⟨s', hstep, hrun⟩ := exists_step_of_runState_succ hrun
    have hsb : s.sbusy = true := hbusy 0 s (Nat.succ_pos k) rfl
    have hs' := everyStepKeepsTheInvariant s s' hs hstep
    have hbusy' : ∀ j v, j < k → runState j s' = some v → v.sbusy = true := fun j v hj hv =>
      hbusy (j + 1) v (Nat.succ_lt_succ hj) ((runState_succ hstep).trans hv)
    rcases step_cases hstep with ⟨i, rest, hi, -, hhost⟩ | ⟨a, ins, ha, -, hops, hagent⟩ | ⟨-, -, hstuck⟩
    · have hspared := hspares i (by simp [hi])
      have hreset : ∀ d, i.op ≠ .reset d := fun d hd => by simp [hd, HostOp.sparesBuffer] at hspared
      obtain ⟨hframe, -, -⟩ := (hs.withInputs rest).spectatorFrame_hostStep hsb hreset hhost
      have hinputs : s'.inputs = rest := by rw [hframe]
      have hsame := (h.withInputs rest).hostStep (hs.withInputs rest) hsb hspared hhost
      obtain ⟨j, v, hj, hv, hlength⟩ := ih hsame hs' hu hui
        (hspares.of_step (by rw [hframe]) (by rw [hframe]) (by simp [hinputs, hi])) hrun hbusy'
      refine ⟨j, v, hj, hv, ?_⟩
      rw [hi, List.length_cons]
      rw [hinputs] at hlength
      omega
    · obtain ⟨hcount, hbufptr, -⟩ := (agentStep_frame hagent).request
      have hinputs : s'.inputs = ins := agentStep_inputs hagent
      have hub : u.sbusy = true := h.sbusy_eq.symm.trans hsb
      have hua : u.enabledAgent = some a := h.enabledAgent_eq.symm.trans ha
      obtain ⟨u', hagent', hsame⟩ := (h.withInputs ins).agentStep (hs.withInputs ins) hu hub hagent
      have hu' := hu.of_agentStep hua hagent'
      have hui' := (agentStep_inputs hagent').trans hui
      obtain ⟨j, v, hj, hv, hlength⟩ := ih hsame hs' hu' hui'
        (hspares.of_step hbufptr hcount (by simp [hinputs, hops])) hrun hbusy'
      have hsteps : ins.length = s.inputs.length := by simpa using congrArg List.length hops
      refine ⟨j + 1, v, (runState_succ ((step_of_no_inputs hui hua).trans hagent')).trans hj, hv, ?_⟩
      rw [hinputs] at hlength
      omega
    · cases hstuck

/-- Settles O60: at first the two states have the same transfer, the host's coming steps being no part of it. -/
theorem hostStepsDoNotDisturbATransfer : Obligations.HostStepsDoNotDisturbATransfer :=
  fun _ s _ hs hspares hrun hbusy =>
    exists_run_sameTransfer (u := { s with inputs := [] }) ⟨rfl, fun _ _ => rfl⟩ hs (hs.withInputs []) rfl hspares hrun
      hbusy

end Sys2Proof.Machine
end

section
/-! Proofs about the bus transactions of one byte (41_block_transfer R176, R177), phase by phase: each phase is the
sequencer's issue, the slave's answer and, for the data, the copy engine's move. -/

namespace Sys2Proof.Machine

variable {s t u : State} {st st' : SeqStep} {d d' : Device}

/-! The sequencer's turn, and the steps of BUS and CE between two turns. -/

/-- It is the sequencer's turn at SSTEP = `st`, and the host makes no further step. -/
structure State.SeqTurn (s : State) (st : SeqStep) : Prop where
  inv     : s.Inv
  inputs  : s.inputs = []
  sbusy   : s.sbusy = true
  ready   : s.ready = true
  ceArmed : s.ceArmed = false
  sstep   : s.sstep = st

theorem State.SeqTurn.enabledAgent_eq (h : s.SeqTurn st) : s.enabledAgent = some .seq :=
  enabledAgent_eq_seq_iff.mpr ⟨h.sbusy, h.ready, h.ceArmed⟩

theorem State.SeqTurn.step_eq (h : s.SeqTurn st) : step s = agentStep .seq s :=
  step_of_no_inputs h.inputs h.enabledAgent_eq

/-- The sequencer's next turn after a run in which the transfer stayed active. -/
theorem State.SeqTurn.of_runState {k : Nat} (h : s.SeqTurn st) (hrun : runState k s = some t)
    (hkept : t.inputs = s.inputs ∧ t.sbusy = s.sbusy) (hturn : t.ready = true ∧ t.ceArmed = false)
    (hs : t.sstep = st') : t.SeqTurn st' :=
  ⟨h.inv.of_runState hrun, hkept.left.trans h.inputs, hkept.right.trans h.sbusy, hturn.left, hturn.right, hs⟩

/-- An active transfer at SS_START is at the sequencer's turn: the bus is free (41_block_transfer R165). -/
theorem seqTurn_of_ssStart (h : s.Inv) (hi : s.inputs = []) (hbusy : s.sbusy = true) (hs : s.sstep = .ssStart) :
    s.SeqTurn .ssStart := by
  have hseq := h.seq
  simp only [State.SequencerConsistent, hs] at hseq
  obtain ⟨hc, hheld⟩ := hseq
  obtain ⟨-, hfree, -⟩ := h.bus
  exact ⟨h, hi, hbusy, (hfree hheld).right.left, hc, hs⟩

/-- The slave hears of a transmitted or received byte by its own answer only (20_memory R77). -/
@[simp] theorem Device.onEvent_tx (d : Device) (b : Byte) (a : AckBit) : d.onEvent (.tx b a) = d := by
  cases d <;> rfl

@[simp] theorem Device.onEvent_rx (d : Device) (b : Byte) (m : AckBit) : d.onEvent (.rx b m) = d := by
  cases d <;> rfl

/-- The transmit phase in flight completes with Ack (40_bus_primitive R122). -/
theorem step_of_acked (hi : s.inputs = []) (hr : s.ready = false)
    (hst : s.bstate = .startPending ∨ s.bstate = .addressing ∨ s.bstate = .transmittingByte)
    (ha : s.device.answerTx s.shift = (.ack, d)) :
    step s = .next { s with history := s.history ++ [.tx s.shift .ack], device := d, ready := true } := by
  obtain ⟨hack, -, -⟩ := transmitCompletion s .ack d hr hst ha
  rw [step_of_no_inputs hi (enabledAgent_eq_bus_iff.mpr hr), hack rfl, Device.onEvent_tx]

/-- The NACKed receive phase in flight completes with a byte (40_bus_primitive R123). -/
theorem step_of_received {v : Byte} (hi : s.inputs = []) (hr : s.ready = false) (hst : s.bstate = .receivingByte)
    (hack : s.rxack = false) (ha : s.device.answerRx = (.data v, d)) :
    step s = .next { s with
      history := s.history ++ [.rx v .nack], device := d, rxdata := v, mrecv := false, ready := true } := by
  obtain ⟨hdata, -⟩ := receiveCompletion s (.data v) d hr hst ha
  rw [step_of_no_inputs hi (enabledAgent_eq_bus_iff.mpr hr), hdata v rfl]
  simp only [hack, Bool.false_eq_true, if_false, if_true, Device.onEvent_rx]

theorem step_of_stopPending (hi : s.inputs = []) (hr : s.ready = false) (hst : s.bstate = .stopPending) :
    step s = .next s.completeStop := by
  rw [step_of_no_inputs hi (enabledAgent_eq_bus_iff.mpr hr)]
  exact stopCompletion s hr hst

/-- The copy engine's move in a write, after the address phase (41_block_transfer R172, R173). -/
theorem step_of_ceWrite (hi : s.inputs = []) (hr : s.ready = true) (hc : s.ceArmed = true) (hd : s.sdir = false)
    (hst : s.bstate = .addressing) (haddress : s.ceAddress < Config.sysMemSize) :
    step s = .next { s with
      txdata := s.mem.read s.ceAddress, shift := s.mem.read s.ceAddress, ceArmed := false
      bstate := .transmittingByte, ready := false } := by
  rw [step_of_no_inputs hi (enabledAgent_eq_ce_iff.mpr ⟨hc, hr, .inl ⟨hd, hst⟩⟩)]
  exact ceStep_of_write hd haddress

/-- The copy engine's move in a read, after the receive phase (41_block_transfer R172, R174). -/
theorem step_of_ceRead (hi : s.inputs = []) (hr : s.ready = true) (hc : s.ceArmed = true) (hd : s.sdir = true)
    (hst : s.bstate = .receivingByte) (haddress : s.ceAddress < Config.sysMemSize) :
    step s = .next { s with mem := s.mem.write s.ceAddress s.rxdata, ceArmed := false } := by
  rw [step_of_no_inputs hi (enabledAgent_eq_ce_iff.mpr ⟨hc, hr, .inr ⟨hd, hst⟩⟩)]
  exact ceStep_of_read hd haddress

theorem runState_step {k : Nat} (h : step s = .next u) (hrest : runState k u = some t) : runState (k + 1) s = some t :=
  (runState_succ h).trans hrest

/-! The phases, each from one turn of the sequencer to the next. `d` is the slave after its answer. -/

/-- `s` after the acknowledged start phase of a byte. -/
def State.started (s : State) (d : Device) : State :=
  { s with
    history := s.history ++ [.start] ++ [.tx (s.slave ++ 0#1) .ack], device := d, shift := s.slave ++ 0#1
    bstate := .startPending, held := true, rxmode := false, mrecv := false, ready := true, sstep := .ssAddr }

/-- `s` after the acknowledged address phase of a byte to be read. -/
def State.addressed (s : State) (d : Device) : State :=
  { s with
    history := s.history ++ [.tx s.addr .ack], device := d, shift := s.addr, bstate := .addressing, ready := true
    sstep := .ssRestart }

/-- `s` after the acknowledged repeated start phase. -/
def State.restarted (s : State) (d : Device) : State :=
  { s with
    history := s.history ++ [.repStart] ++ [.tx (s.slave ++ 1#1) .ack], device := d, shift := s.slave ++ 1#1
    bstate := .startPending, held := true, rxmode := true, mrecv := true, ready := true, sstep := .ssRdata }

/-- `s` after the receive phase of the byte `v` and the copy engine's move of it. -/
def State.received (s : State) (v : Byte) (d : Device) : State :=
  { s with
    history := s.history ++ [.rx v .nack], device := d, rxdata := v, rxack := false, bstate := .receivingByte
    mrecv := false, ready := true, ceArmed := false, mem := s.mem.write s.ceAddress v, sstep := .ssStop }

/-- `s` after the acknowledged address phase of a byte to be written, the copy engine's move and the acknowledged data
phase. -/
def State.wrote (s : State) (d : Device) : State :=
  { s with
    history := s.history ++ [.tx s.addr .ack] ++ [.tx (s.mem.read s.ceAddress) .ack], device := d
    shift := s.mem.read s.ceAddress, txdata := s.mem.read s.ceAddress, bstate := .transmittingByte, ready := true
    ceArmed := false, sstep := .ssStop }

/-- `s` after the stop phase of a byte and its count. -/
def State.endByte (s : State) : State := s.seqStop.completeStop.seqNext

theorem State.SeqTurn.run_start (h : s.SeqTurn .ssStart)
    (ha : (s.device.onEvent .start).answerTx (s.slave ++ 0#1) = (.ack, d)) :
    runState 2 s = some (s.started d) ∧ (s.started d).SeqTurn .ssAddr := by
  obtain ⟨hissue, -⟩ := sequencerIssuesPhases s h.inv h.enabledAgent_eq
  have hrun : runState 2 s = some (s.started d) := by
    refine runState_step (h.step_eq.trans (hissue h.sstep)) ?_
    exact runState_step (step_of_acked h.inputs rfl (.inl rfl) ha) rfl
  exact ⟨hrun, h.of_runState hrun ⟨rfl, rfl⟩ ⟨rfl, h.ceArmed⟩ rfl⟩

theorem State.SeqTurn.run_address (h : s.SeqTurn .ssAddr) (hd : s.sdir = true)
    (ha : s.device.answerTx s.addr = (.ack, d)) :
    runState 2 s = some (s.addressed d) ∧ (s.addressed d).SeqTurn .ssRestart := by
  obtain ⟨-, -, hissue, -⟩ := sequencerIssuesPhases s h.inv h.enabledAgent_eq
  have hrun : runState 2 s = some (s.addressed d) := by
    refine runState_step (h.step_eq.trans (hissue h.sstep hd)) ?_
    exact runState_step (step_of_acked h.inputs rfl (.inr (.inl rfl)) ha) rfl
  exact ⟨hrun, h.of_runState hrun ⟨rfl, rfl⟩ ⟨rfl, h.ceArmed⟩ rfl⟩

theorem State.SeqTurn.run_restart (h : s.SeqTurn .ssRestart)
    (ha : (s.device.onEvent .repStart).answerTx (s.slave ++ 1#1) = (.ack, d)) :
    runState 2 s = some (s.restarted d) ∧ (s.restarted d).SeqTurn .ssRdata := by
  obtain ⟨-, -, -, hissue, -⟩ := sequencerIssuesPhases s h.inv h.enabledAgent_eq
  have hrun : runState 2 s = some (s.restarted d) := by
    refine runState_step (h.step_eq.trans (hissue h.sstep)) ?_
    exact runState_step (step_of_acked h.inputs rfl (.inl rfl) ha) rfl
  exact ⟨hrun, h.of_runState hrun ⟨rfl, rfl⟩ ⟨rfl, h.ceArmed⟩ rfl⟩

theorem State.SeqTurn.run_receive {v : Byte} (h : s.SeqTurn .ssRdata) (hd : s.sdir = true)
    (ha : s.device.answerRx = (.data v, d)) :
    runState 3 s = some (s.received v d) ∧ (s.received v d).SeqTurn .ssStop := by
  obtain ⟨-, -, -, -, hissue, -⟩ := sequencerIssuesPhases s h.inv h.enabledAgent_eq
  have hrun : runState 3 s = some (s.received v d) := by
    refine runState_step (h.step_eq.trans (hissue h.sstep)) ?_
    refine runState_step (step_of_received h.inputs rfl rfl rfl ha) ?_
    exact runState_step (step_of_ceRead h.inputs rfl rfl hd rfl (h.inv.ceAddress_lt h.sbusy)) rfl
  exact ⟨hrun, h.of_runState hrun ⟨rfl, rfl⟩ ⟨rfl, rfl⟩ rfl⟩

theorem State.SeqTurn.run_write (h : s.SeqTurn .ssAddr) (hd : s.sdir = false)
    (ha : s.device.answerTx s.addr = (.ack, d)) (hb : d.answerTx (s.mem.read s.ceAddress) = (.ack, d')) :
    runState 4 s = some (s.wrote d') ∧ (s.wrote d').SeqTurn .ssStop := by
  obtain ⟨-, hissue, -⟩ := sequencerIssuesPhases s h.inv h.enabledAgent_eq
  have hrun : runState 4 s = some (s.wrote d') := by
    refine runState_step (h.step_eq.trans (hissue h.sstep hd)) ?_
    refine runState_step (step_of_acked h.inputs rfl (.inr (.inl rfl)) ha) ?_
    refine runState_step (step_of_ceWrite h.inputs rfl rfl hd rfl (h.inv.ceAddress_lt h.sbusy)) ?_
    exact runState_step (step_of_acked h.inputs rfl (.inr (.inr rfl)) hb) rfl
  exact ⟨hrun, h.of_runState hrun ⟨rfl, rfl⟩ ⟨rfl, rfl⟩ rfl⟩

theorem State.SeqTurn.run_endByte (h : s.SeqTurn .ssStop) : runState 3 s = some s.endByte := by
  obtain ⟨-, -, -, -, -, hissue⟩ := sequencerIssuesPhases s h.inv h.enabledAgent_eq
  have hrun : runState 2 s = some s.seqStop.completeStop := by
    refine runState_step (h.step_eq.trans (hissue h.sstep)) ?_
    exact runState_step (step_of_stopPending h.inputs rfl rfl) rfl
  have hnext := h.of_runState (st' := .ssNext) hrun ⟨rfl, rfl⟩ ⟨rfl, h.ceArmed⟩ rfl
  rw [show 3 = 2 + 1 from rfl, runState_add 1 hrun]
  exact runState_succ (hnext.step_eq.trans rfl)

/-! The byte counted (41_block_transfer R170). -/

/-- What the stop phase and SS_NEXT leave unchanged, whichever branch SS_NEXT takes. -/
theorem endByte_eq_with (s : State) : s.endByte = { s with
    history := s.history ++ [.stop], device := s.device.onEvent .stop, bstate := .idle, held := false
    rxmode := false, mrecv := false, ready := true, completed := s.completed + 1, addr := s.addr + 1, byte := true
    done := s.endByte.done, sbusy := s.endByte.sbusy, sstep := s.endByte.sstep } := by
  unfold State.endByte State.seqNext
  dsimp only
  split
  · rfl
  · rfl

theorem endByte_mem (s : State) : s.endByte.mem = s.mem := by rw [endByte_eq_with]

theorem endByte_device (s : State) : s.endByte.device = s.device.onEvent .stop := by rw [endByte_eq_with]

theorem endByte_history (s : State) : s.endByte.history = s.history ++ [.stop] := by rw [endByte_eq_with]

/-- `t` is `s` one byte of the request further: the bus is free and the next byte's transaction is to start, or the
request is done. -/
structure State.ByteCounted (s t : State) : Prop where
  completed : t.completed.toNat = s.completed.toNat + 1
  addr      : t.addr = s.addr + 1
  byte      : t.byte = true
  kept      : t.en = s.en ∧ t.sdir = s.sdir ∧ t.count = s.count ∧ t.bufptr = s.bufptr ∧ t.slave = s.slave
  free      : t.bstate = .idle ∧ t.held = false ∧ t.ready = true ∧ t.inputs = []
  more      : s.completed.toNat + 1 < s.count.toNat → t.SeqTurn .ssStart
  last      : ¬s.completed.toNat + 1 < s.count.toNat → t.sbusy = false ∧ t.done = true

theorem State.SeqTurn.byteCounted_endByte (h : s.SeqTurn .ssStop) : s.ByteCounted s.endByte := by
  have hcounted := h.inv.request.toNat_completed_succ h.sbusy
  have hkept := endByte_eq_with s
  have hinputs : s.endByte.inputs = [] := by
    rw [hkept]
    exact h.inputs
  refine ⟨?_, by rw [hkept], by rw [hkept], by rw [hkept]; simp, ?_, fun hlt => ?_, fun hlast => ?_⟩
  · rw [hkept]
    exact hcounted
  · rw [hkept]
    exact ⟨rfl, rfl, rfl, h.inputs⟩
  · have hnext := seqNext_of_lt (s := s.seqStop.completeStop) (hcounted ▸ hlt)
    exact seqTurn_of_ssStart (h.inv.of_runState h.run_endByte) hinputs
      ((congrArg State.sbusy hnext).trans h.sbusy) (congrArg State.sstep hnext)
  · have hnext := seqNext_of_not_lt (s := s.seqStop.completeStop) (hcounted ▸ hlast)
    exact ⟨congrArg State.sbusy hnext, congrArg State.done hnext⟩

theorem State.ByteCounted.sbusy_iff (h : s.ByteCounted t) :
    t.sbusy = true ↔ s.completed.toNat + 1 < s.count.toNat := by
  by_cases hlt : s.completed.toNat + 1 < s.count.toNat
  · simp [hlt, (h.more hlt).sbusy]
  · simp [hlt, (h.last hlt).left]

theorem State.ByteCounted.completed_eq (h : s.ByteCounted t) (hturn : s.SeqTurn st) :
    t.completed = s.completed + 1 :=
  BitVec.eq_of_toNat_eq (h.completed.trans (hturn.inv.request.toNat_completed_succ hturn.sbusy).symm)

/-! The transactions. -/

/-- One byte of a block write with every answer Ack (41_block_transfer R176). -/
theorem State.SeqTurn.exists_run_writeByte {d₁ d₂ d₃ : Device} (h : s.SeqTurn .ssStart) (hd : s.sdir = false)
    (hcontrol : (s.device.onEvent .start).answerTx (s.slave ++ 0#1) = (.ack, d₁))
    (haddr : d₁.answerTx s.addr = (.ack, d₂)) (hdata : d₂.answerTx (s.mem.read s.ceAddress) = (.ack, d₃)) :
    ∃ t, runState 9 s = some t ∧ s.ByteCounted t ∧ t.mem = s.mem ∧ t.device = d₃.onEvent .stop ∧
      t.history = s.history ++ [.start, .tx (s.slave ++ 0#1) .ack, .tx s.addr .ack,
        .tx (s.mem.read s.ceAddress) .ack, .stop] := by
  obtain ⟨hstart, haddressing⟩ := h.run_start hcontrol
  obtain ⟨hwrite, hstopping⟩ := haddressing.run_write hd haddr hdata
  have hrun : runState 9 s = some ((s.started d₁).wrote d₃).endByte :=
    (runState_add 7 hstart).trans ((runState_add 3 hwrite).trans hstopping.run_endByte)
  refine ⟨_, hrun, { hstopping.byteCounted_endByte with }, endByte_mem _, endByte_device _, ?_⟩
  rw [endByte_history]
  simp only [State.wrote, State.started, State.ceAddress, List.append_assoc, List.cons_append, List.nil_append]

/-- One byte of a block read with every transmit answer Ack and the byte `v` (41_block_transfer R177). -/
theorem State.SeqTurn.exists_run_readByte {d₁ d₂ d₃ d₄ : Device} {v : Byte} (h : s.SeqTurn .ssStart)
    (hd : s.sdir = true) (hcontrol : (s.device.onEvent .start).answerTx (s.slave ++ 0#1) = (.ack, d₁))
    (haddr : d₁.answerTx s.addr = (.ack, d₂))
    (hrestart : (d₂.onEvent .repStart).answerTx (s.slave ++ 1#1) = (.ack, d₃))
    (hdata : d₃.answerRx = (.data v, d₄)) :
    ∃ t, runState 12 s = some t ∧ s.ByteCounted t ∧ t.mem = s.mem.write s.ceAddress v ∧
      t.device = d₄.onEvent .stop ∧
      t.history = s.history ++ [.start, .tx (s.slave ++ 0#1) .ack, .tx s.addr .ack, .repStart,
        .tx (s.slave ++ 1#1) .ack, .rx v .nack, .stop] := by
  obtain ⟨hstart, haddressing⟩ := h.run_start hcontrol
  obtain ⟨haddress, hrestarting⟩ := haddressing.run_address hd haddr
  obtain ⟨hrestarted, hreceiving⟩ := hrestarting.run_restart hrestart
  obtain ⟨hreceive, hstopping⟩ := hreceiving.run_receive hd hdata
  have hrun : runState 12 s = some ((((s.started d₁).addressed d₂).restarted d₃).received v d₄).endByte :=
    (runState_add 10 hstart).trans <| (runState_add 8 haddress).trans <|
      (runState_add 6 hrestarted).trans <| (runState_add 3 hreceive).trans hstopping.run_endByte
  refine ⟨_, hrun, { hstopping.byteCounted_endByte with }, endByte_mem _, endByte_device _, ?_⟩
  rw [endByte_history]
  simp only [State.received, State.restarted, State.addressed, State.started, List.append_assoc, List.cons_append,
    List.nil_append]

/-- Settles O54: the listed answers are the three Acks of the byte's transaction. -/
theorem writeByteTransaction : Obligations.WriteByteTransaction := by
  intro s tx rx n h hbusy hd hs hi hdevice
  have hturn := seqTurn_of_ssStart h hi hbusy hs
  obtain ⟨t, hrun, hcounted, hmem, hdevice', hhistory⟩ := hturn.exists_run_writeByte
    (d₁ := .oracle (.ack :: .ack :: tx) rx n) (d₂ := .oracle (.ack :: tx) rx n) (d₃ := .oracle tx rx n) hd
    (by rw [hdevice]; rfl) rfl rfl
  obtain ⟨hidle, hheld, -⟩ := hcounted.free
  exact ⟨t, hrun, hhistory, hcounted.completed_eq hturn, hcounted.addr, hcounted.byte, hmem, hdevice', hidle, hheld,
    hcounted.sbusy_iff⟩

/-- Settles O55: the listed answers are the three Acks and the byte of the byte's transaction. -/
theorem readByteTransaction : Obligations.ReadByteTransaction := by
  intro s v tx rx n h hbusy hd hs hi hdevice
  have hturn := seqTurn_of_ssStart h hi hbusy hs
  obtain ⟨t, hrun, hcounted, hmem, hdevice', hhistory⟩ := hturn.exists_run_readByte
    (d₁ := .oracle (.ack :: .ack :: tx) (.data v :: rx) n) (d₂ := .oracle (.ack :: tx) (.data v :: rx) n)
    (d₃ := .oracle tx (.data v :: rx) n) (d₄ := .oracle tx rx n) hd (by rw [hdevice]; rfl) rfl rfl rfl
  obtain ⟨hidle, hheld, -⟩ := hcounted.free
  refine ⟨t, hrun, hhistory, hcounted.completed_eq hturn, hcounted.addr, hcounted.byte, ?_, fun a hne => ?_, hdevice',
    hidle, hheld, hcounted.sbusy_iff⟩
  · rw [hmem]
    exact Memory.read_write_eq _ _ _ _ h.memory
  · rw [hmem]
    exact Memory.read_write_ne _ _ _ _ _ h.memory hne

end Sys2Proof.Machine
end

section
/-! Proofs about whole requests with the reference slave (41_block_transfer R178, R181): the byte's transaction with its
answers, the induction over the bytes of a request, and the two transfers of the round trip. -/

namespace Sys2Proof.Machine

variable {s s₀ t : State} {r : RefSlave}

/-! One byte with the reference slave (20_memory R77 to R79). -/

/-- A start and the control byte with the slave's own address (20_memory R77, R78). -/
theorem RefSlave.answerTx_control {e : BusEvent} {sl : BitVec 7} (r : RefSlave) (hown : r.devAddr = sl)
    (he : e = .start ∨ e = .repStart) (rw : Bool) :
    ((Device.reference r).onEvent e).answerTx (controlByte sl rw) =
      (.ack, .reference { r with ctl := false, mode := if rw = false then .wantAddr else .readData }) := by
  have listens : r.onEvent e = { r with mode := .off, ctl := true } := by
    rcases he with rfl | rfl
    · rfl
    · rfl
  obtain ⟨haddr, hdirection⟩ := controlByteLayout sl rw
  have hanswer := Device.answerTx_reference
    (RefSlave.answerTx_addressed (r := { r with mode := .off, ctl := true }) rfl (haddr.trans hown.symm))
  rw [Device.onEvent, listens, hanswer, hdirection]

theorem State.SeqTurn.exists_run_writeByte_reference (h : s.SeqTurn .ssStart) (hd : s.sdir = false)
    (hslave : s.device = .reference r) (hown : r.devAddr = s.slave) :
    ∃ t, runState 9 s = some t ∧ s.ByteCounted t ∧ t.mem = s.mem ∧ t.device = .reference { r with
      cells := r.cells.write s.addr.toNat (s.mem.read s.ceAddress), ptr := s.addr + 1, mode := .off
      ctl := false } := by
  have hcontrol := RefSlave.answerTx_control r hown (.inl rfl) false
  rw [← hslave] at hcontrol
  obtain ⟨t, hrun, hcounted, hmem, hdevice, -⟩ := h.exists_run_writeByte hd hcontrol
    (Device.answerTx_reference (RefSlave.answerTx_wantAddr rfl rfl))
    (Device.answerTx_reference (RefSlave.answerTx_writeData rfl rfl))
  exact ⟨t, hrun, hcounted, hmem, hdevice⟩

theorem State.SeqTurn.exists_run_readByte_reference (h : s.SeqTurn .ssStart) (hd : s.sdir = true)
    (hslave : s.device = .reference r) (hown : r.devAddr = s.slave) :
    ∃ t, runState 12 s = some t ∧ s.ByteCounted t ∧ t.mem = s.mem.write s.ceAddress (r.cells.read s.addr.toNat) ∧
      t.device = .reference { r with ptr := s.addr + 1, mode := .off, ctl := false } := by
  have hcontrol := RefSlave.answerTx_control r hown (.inl rfl) false
  have hrestart := RefSlave.answerTx_control { r with ctl := false, ptr := s.addr, mode := .writeData } hown
    (.inr rfl) true
  rw [← hslave] at hcontrol
  obtain ⟨t, hrun, hcounted, hmem, hdevice, -⟩ := h.exists_run_readByte hd hcontrol
    (Device.answerTx_reference (RefSlave.answerTx_wantAddr rfl rfl)) hrestart
    (Device.answerRx_reference (RefSlave.answerRx_readData rfl))
  exact ⟨t, hrun, hcounted, hmem, hdevice⟩

/-! The bytes of a request. -/

/-- `t` is at rest after a completed request (41_block_transfer R183). -/
structure State.RequestDone (t : State) : Prop where
  inv       : t.Inv
  sbusy     : t.sbusy = false
  done      : t.done = true
  completed : t.completed.toNat = t.count.toNat
  free      : t.held = false ∧ t.ready = true ∧ t.inputs = []

/-- Induction over the bytes of a request: what one byte's transaction of `n` steps keeps, `n` steps a byte keep to the
end of the request. -/
theorem State.SeqTurn.exists_run_request {n : Nat} {I : State → Prop}
    (hbyte : ∀ s : State, s.SeqTurn .ssStart → I s → ∃ t, runState n s = some t ∧ s.ByteCounted t ∧ I t)
    (h : s.SeqTurn .ssStart) (hI : I s) :
    ∃ t, runState (n * (s.count.toNat - s.completed.toNat)) s = some t ∧ t.RequestDone ∧ I t := by
  obtain ⟨hlt, -⟩ := h.inv.request h.sbusy
  obtain ⟨m, hm⟩ : ∃ m, s.count.toNat - s.completed.toNat = m + 1 := ⟨s.count.toNat - s.completed.toNat - 1, by omega⟩
  induction m generalizing s with
  | zero =>
    obtain ⟨t, hrun, hcounted, hIt⟩ := hbyte s h hI
    obtain ⟨hidle, hdone⟩ := hcounted.last (by omega)
    obtain ⟨-, hheld, hready, hinputs⟩ := hcounted.free
    obtain ⟨-, -, hcount, -, -⟩ := hcounted.kept
    rw [hm, Nat.zero_add, Nat.mul_one]
    refine ⟨t, hrun, ⟨h.inv.of_runState hrun, hidle, hdone, ?_, hheld, hready, hinputs⟩, hIt⟩
    rw [hcounted.completed, hcount]
    omega
  | succ m ih =>
    obtain ⟨u, hrun, hcounted, hIu⟩ := hbyte s h hI
    obtain ⟨-, -, hcount, -, -⟩ := hcounted.kept
    have hcompleted := hcounted.completed
    obtain ⟨t, hrest, hdone, hIt⟩ := ih (hcounted.more (by omega)) hIu (by rw [hcount]; omega) (by rw [hcount]; omega)
    refine ⟨t, ?_, hdone, hIt⟩
    have hsteps : n * (s.count.toNat - s.completed.toNat) = n + n * (u.count.toNat - u.completed.toNat) := by
      rw [hcount, hm, hcompleted, show s.count.toNat - (s.completed.toNat + 1) = m + 1 by omega, Nat.mul_succ n (m + 1),
        Nat.add_comm]
    rw [hsteps, runState_add _ hrun, hrest]

/-- `t` is in the request that `s₀` is at the start of. -/
structure State.SameRequest (s₀ t : State) : Prop where
  kept : t.en = s₀.en ∧ t.sdir = s₀.sdir ∧ t.count = s₀.count ∧ t.bufptr = s₀.bufptr ∧ t.slave = s₀.slave
  addr : t.addr.toNat = (s₀.addr.toNat + t.completed.toNat) % 256

/-- One byte counted: ADDR and COMPLETED move on together (41_block_transfer R170). -/
theorem State.SameRequest.count_byte (h : s₀.SameRequest s)
    (hkept : t.en = s.en ∧ t.sdir = s.sdir ∧ t.count = s.count ∧ t.bufptr = s.bufptr ∧ t.slave = s.slave)
    (hcompleted : t.completed.toNat = s.completed.toNat + 1) (haddr : t.addr = s.addr + 1) : s₀.SameRequest t := by
  obtain ⟨hen, hd, hcount, hbufptr, hslave⟩ := h.kept
  obtain ⟨hen', hd', hcount', hbufptr', hslave'⟩ := hkept
  refine ⟨⟨hen'.trans hen, hd'.trans hd, hcount'.trans hcount, hbufptr'.trans hbufptr, hslave'.trans hslave⟩, ?_⟩
  rw [hcompleted, haddr, BitVec.toNat_add, h.addr]
  simp [Nat.add_assoc]

theorem State.SameRequest.byteCounted (h : s₀.SameRequest s) (hcounted : s.ByteCounted t) : s₀.SameRequest t :=
  h.count_byte hcounted.kept hcounted.completed hcounted.addr

/-- At the start of a byte, ADDR is the request's cell COMPLETED, inside the EEPROM: it has not wrapped. -/
theorem State.SameRequest.addr_eq (h : s₀.SameRequest s) (hrange : s₀.addr.toNat + s₀.count.toNat ≤ 256)
    (hturn : s.SeqTurn .ssStart) :
    s.addr.toNat = s₀.addr.toNat + s.completed.toNat := by
  obtain ⟨-, -, hcount, -, -⟩ := h.kept
  obtain ⟨hlt, -⟩ := hturn.inv.request hturn.sbusy
  rw [hcount] at hlt
  rw [h.addr, Nat.mod_eq_of_lt (by omega)]

/-- `t` has written the first COMPLETED bytes of the request of `s₀` to the reference slave's cells. -/
structure State.WrittenFrom (s₀ t : State) : Prop where
  request : s₀.SameRequest t
  mem     : t.mem = s₀.mem
  cells   : ∃ r, t.device = .reference r ∧ r.devAddr = s₀.slave ∧
    ∀ k, k < t.completed.toNat → r.cells.read (s₀.addr.toNat + k) = s₀.mem.read (s₀.bufptr.toNat + k)

theorem State.WrittenFrom.exists_run_byte (h : s₀.WrittenFrom s) (hd : s₀.sdir = false)
    (hrange : s₀.addr.toNat + s₀.count.toNat ≤ 256) (hturn : s.SeqTurn .ssStart) :
    ∃ t, runState 9 s = some t ∧ s.ByteCounted t ∧ s₀.WrittenFrom t := by
  obtain ⟨r, hslave, hown, hcells⟩ := h.cells
  obtain ⟨-, hsdir, -, hbufptr, hsl⟩ := h.request.kept
  have haddr := h.request.addr_eq hrange hturn
  have hwf : r.cells.wf Config.eepromSize = true := by simpa only [hslave] using hturn.inv.slave
  obtain ⟨t, hrun, hcounted, hmem, hdevice⟩ :=
    hturn.exists_run_writeByte_reference (hsdir.trans hd) hslave (hown.trans hsl.symm)
  refine ⟨t, hrun, hcounted, h.request.byteCounted hcounted, hmem.trans h.mem, _, hdevice, hown, fun k hk => ?_⟩
  rw [hcounted.completed] at hk
  simp only [haddr]
  rcases Nat.lt_succ_iff_lt_or_eq.mp hk with hlt | rfl
  · rw [Memory.read_write_ne _ _ _ _ _ hwf (by omega), hcells k hlt]
  · rw [Memory.read_write_eq _ _ _ _ hwf, State.ceAddress, h.mem, hbufptr]

/-- `t` has read the first COMPLETED bytes of the request of `s₀` from the cells `cells` of the reference slave, which
it leaves as they are. -/
structure State.ReadFrom (s₀ : State) (cells : Memory) (t : State) : Prop where
  request : s₀.SameRequest t
  slave   : ∃ r, t.device = .reference r ∧ r.devAddr = s₀.slave ∧ r.cells = cells
  buffer  : ∀ k, k < t.completed.toNat → t.mem.read (s₀.bufptr.toNat + k) = cells.read (s₀.addr.toNat + k)

theorem State.ReadFrom.exists_run_byte {cells : Memory} (h : s₀.ReadFrom cells s) (hd : s₀.sdir = true)
    (hrange : s₀.addr.toNat + s₀.count.toNat ≤ 256) (hturn : s.SeqTurn .ssStart) :
    ∃ t, runState 12 s = some t ∧ s.ByteCounted t ∧ s₀.ReadFrom cells t := by
  obtain ⟨r, hslave, hown, rfl⟩ := h.slave
  obtain ⟨-, hsdir, -, hbufptr, hsl⟩ := h.request.kept
  have haddr := h.request.addr_eq hrange hturn
  obtain ⟨t, hrun, hcounted, hmem, hdevice⟩ :=
    hturn.exists_run_readByte_reference (hsdir.trans hd) hslave (hown.trans hsl.symm)
  refine ⟨t, hrun, hcounted, h.request.byteCounted hcounted, ⟨_, hdevice, hown, rfl⟩, fun k hk => ?_⟩
  rw [hcounted.completed] at hk
  rw [hmem, haddr, State.ceAddress, hbufptr]
  rcases Nat.lt_succ_iff_lt_or_eq.mp hk with hlt | rfl
  · rw [Memory.read_write_ne _ _ _ _ _ hturn.inv.memory (by omega), h.buffer k hlt]
  · rw [Memory.read_write_eq _ _ _ _ hturn.inv.memory]

/-! Requests from their acceptance to their end. -/

/-- The state in which a request of at least one byte is accepted (41_block_transfer R163). -/
def State.accepted (s : State) (dir : Bool) : State :=
  { s with sdir := dir, completed := 0, byte := false, done := false, sbusy := true, sstep := .ssStart }

theorem sameRequest_accepted (s : State) (dir : Bool) : (s.accepted dir).SameRequest (s.accepted dir) :=
  ⟨⟨rfl, rfl, rfl, rfl, rfl⟩, (Nat.mod_eq_of_lt s.addr.isLt).symm⟩

theorem State.Inv.seqTurn_accepted (h : s.Inv) (hi : s.inputs = []) (haccepted : s.transferError = none)
    (hcount : s.count ≠ 0) (dir : Bool) : (s.accepted dir).SeqTurn .ssStart := by
  obtain ⟨hen, hidle, -, hfree, hrange⟩ := transferError_eq_none_iff.mp haccepted
  have hinv := h.accept hen hidle hfree hrange dir
  rw [accept_of_count_ne_zero hcount] at hinv
  exact seqTurn_of_ssStart hinv hi rfl rfl

theorem exec_xferR_eq_accepted (haccepted : s.transferError = none) (hcount : s.count ≠ 0) :
    exec .xferR s = .next (s.accepted true) :=
  (exec_xferR_of_accepted haccepted).trans (congrArg _ (accept_of_count_ne_zero hcount true))

/-- A transfer command after which the transfer is active, and was not before, was accepted (41_block_transfer R163). -/
theorem accepted_of_exec {i : Instr} (hi : i = .xferW ∨ i = .xferR) (hexec : exec i s = .next t)
    (hidle : s.sbusy = false) (hbusy : t.sbusy = true) :
    s.transferError = none ∧ s.count ≠ 0 ∧ t = s.accepted (decide (i = .xferR)) := by
  rcases exec_transfer_cases hi hexec with ⟨c, rfl⟩ | ⟨haccepted, rfl⟩
  · simp [hidle] at hbusy
  · by_cases hcount : s.count = 0
    · simp [accept_of_count_eq_zero hcount, hidle] at hbusy
    · exact ⟨haccepted, hcount, accept_of_count_ne_zero hcount _⟩

/-- A request accepted with the reference slave at its address writes the buffer to the cells. -/
theorem State.Inv.exists_run_writeRequest (h : s.Inv) (hi : s.inputs = []) (haccepted : s.transferError = none)
    (hcount : s.count ≠ 0) (hslave : s.device = .reference r) (hown : r.devAddr = s.slave) :
    ∃ t, runState (9 * s.count.toNat) (s.accepted false) = some t ∧ t.RequestDone ∧
      (s.accepted false).WrittenFrom t := by
  obtain ⟨-, -, -, -, hrange⟩ := transferError_eq_none_iff.mp haccepted
  obtain ⟨hcells, -⟩ := requestOutOfRange_eq_false_iff.mp hrange
  exact State.SeqTurn.exists_run_request (fun u hturn hu => hu.exists_run_byte rfl hcells hturn)
    (h.seqTurn_accepted hi haccepted hcount false)
    ⟨sameRequest_accepted s false, rfl, r, hslave, hown, fun k hk => absurd hk (Nat.not_lt_zero k)⟩

/-- A request accepted with the reference slave at its address reads the cells into the buffer. -/
theorem State.Inv.exists_run_readRequest (h : s.Inv) (hi : s.inputs = []) (haccepted : s.transferError = none)
    (hcount : s.count ≠ 0) (hslave : s.device = .reference r) (hown : r.devAddr = s.slave) :
    ∃ t, runState (12 * s.count.toNat) (s.accepted true) = some t ∧ t.RequestDone ∧
      (s.accepted true).ReadFrom r.cells t := by
  obtain ⟨-, -, -, -, hrange⟩ := transferError_eq_none_iff.mp haccepted
  obtain ⟨hcells, -⟩ := requestOutOfRange_eq_false_iff.mp hrange
  exact State.SeqTurn.exists_run_request (fun u hturn hu => hu.exists_run_byte rfl hcells hturn)
    (h.seqTurn_accepted hi haccepted hcount true)
    ⟨sameRequest_accepted s true, ⟨r, hslave, hown, rfl⟩, fun k hk => absurd hk (Nat.not_lt_zero k)⟩

/-- All of the request's bytes are in the cells when it is done. -/
theorem State.WrittenFrom.exists_cells (h : s₀.WrittenFrom t) (hdone : t.RequestDone) :
    ∃ r, t.device = .reference r ∧ r.devAddr = s₀.slave ∧
      ∀ k, k < s₀.count.toNat → r.cells.read (s₀.addr.toNat + k) = s₀.mem.read (s₀.bufptr.toNat + k) := by
  obtain ⟨-, -, hcount, -, -⟩ := h.request.kept
  rw [← hcount, ← hdone.completed]
  exact h.cells

/-- All of the request's bytes are in the buffer when it is done. -/
theorem State.ReadFrom.read_buffer {cells : Memory} (h : s₀.ReadFrom cells t) (hdone : t.RequestDone) :
    ∀ k, k < s₀.count.toNat → t.mem.read (s₀.bufptr.toNat + k) = cells.read (s₀.addr.toNat + k) := by
  obtain ⟨-, -, hcount, -, -⟩ := h.request.kept
  rw [← hcount, ← hdone.completed]
  exact h.buffer

/-- The host may set ADDR and BUFPTR between two requests: the invariant asks nothing of them there. -/
theorem State.RequestDone.inv_withRequest (h : t.RequestDone) (addr : Byte) (buf : Word) :
    ({ t with addr := addr, bufptr := buf } : State).Inv :=
  ⟨h.inv.bus, h.inv.busy, h.inv.seq, by simp [State.RequestConsistent, h.sbusy], h.inv.enabled, h.inv.memory,
    h.inv.slave⟩

/-- After a completed request another one for the same cells is accepted, with any buffer that fits. -/
theorem State.RequestDone.transferError_withRequest {dir : Bool} {buf : Word} (hdone : t.RequestDone)
    (hrequest : (s.accepted dir).SameRequest t) (haccepted : s.transferError = none)
    (hbuf : buf.toNat + s.count.toNat ≤ 65536) :
    ({ t with addr := s.addr, bufptr := buf } : State).transferError = none := by
  obtain ⟨hen, -, -, -, hrange⟩ := transferError_eq_none_iff.mp haccepted
  obtain ⟨hcells, -⟩ := requestOutOfRange_eq_false_iff.mp hrange
  obtain ⟨hen', -, hcount, -, -⟩ := hrequest.kept
  obtain ⟨hheld, hready, -⟩ := hdone.free
  refine transferError_eq_none_iff.mpr ⟨hen'.trans hen, hdone.sbusy, hready, hheld, ?_⟩
  rw [requestOutOfRange_eq_false_iff, hcount]
  exact ⟨hcells, hbuf⟩

/-- After a completed request the same cells can be read into any buffer that fits. -/
theorem State.RequestDone.exists_run_readBack {dir : Bool} {buf : Word} (hdone : t.RequestDone)
    (hrequest : (s.accepted dir).SameRequest t) (haccepted : s.transferError = none) (hcount : s.count ≠ 0)
    (hbuf : buf.toNat + s.count.toNat ≤ 65536) (hslave : t.device = .reference r) (hown : r.devAddr = s.slave) :
    ∃ s₃ s₄, exec .xferR { t with addr := s.addr, bufptr := buf } = .next s₃ ∧
      runState (12 * s.count.toNat) s₃ = some s₄ ∧ s₄.done = true ∧ s₄.sbusy = false ∧
      ∀ k, k < s.count.toNat → s₄.mem.read (buf.toNat + k) = r.cells.read (s.addr.toNat + k) := by
  obtain ⟨-, -, hcount', -, hslave'⟩ := hrequest.kept
  replace hcount' : t.count = s.count := hcount'
  obtain ⟨-, -, hinputs⟩ := hdone.free
  have hchecks := hdone.transferError_withRequest hrequest haccepted hbuf
  rw [← hcount'] at hcount ⊢
  obtain ⟨s₄, hrun, hdone₄, hread⟩ := (hdone.inv_withRequest s.addr buf).exists_run_readRequest hinputs hchecks hcount
    hslave (hown.trans hslave'.symm)
  exact ⟨_, s₄, exec_xferR_eq_accepted hchecks hcount, hrun, hdone₄.done, hdone₄.sbusy, hread.read_buffer hdone₄⟩

/-- Settles O57: the write leaves the buffer's bytes in the cells, and the read back takes them from there. -/
theorem roundTrip : Obligations.RoundTrip := by
  intro s s₁ r buf hinv hi hslave hown hidle hexec hbusy hbuf
  obtain ⟨haccepted, hcount, rfl⟩ := accepted_of_exec (.inl rfl) hexec hidle hbusy
  obtain ⟨s₂, hrun, hdone, hwritten⟩ := hinv.exists_run_writeRequest hi haccepted hcount hslave hown
  obtain ⟨r₂, hslave₂, hown₂, hcells⟩ := hwritten.exists_cells hdone
  obtain ⟨s₃, s₄, hexec', hrun', hdone', hidle', hread⟩ :=
    hdone.exists_run_readBack hwritten.request haccepted hcount hbuf hslave₂ hown₂
  exact ⟨s₂, r₂, hrun, hdone.done, hdone.sbusy, hslave₂, hcells, s₃, s₄, hexec', hrun', hdone', hidle',
    fun k hk => (hread k hk).trans (hcells k hk)⟩

/-- Settles O58: a read leaves the cells as they are, so both reads take the same bytes. -/
theorem readsAreIdempotent : Obligations.ReadsAreIdempotent := by
  intro s s₁ r buf hinv hi hslave hown hidle hexec hbusy hbuf
  obtain ⟨haccepted, hcount, rfl⟩ := accepted_of_exec (.inr rfl) hexec hidle hbusy
  obtain ⟨s₂, hrun, hdone, hread⟩ := hinv.exists_run_readRequest hi haccepted hcount hslave hown
  obtain ⟨r₂, hslave₂, hown₂, hcells⟩ := hread.slave
  obtain ⟨s₃, s₄, hexec', hrun', hdone', hidle', hagain⟩ :=
    hdone.exists_run_readBack hread.request haccepted hcount hbuf hslave₂ hown₂
  refine ⟨s₂, s₃, s₄, hrun, hdone.done, hdone.sbusy, hexec', hrun', hdone', hidle', fun k hk => ?_⟩
  rw [hagain k hk, hcells]
  exact (hread.read_buffer hdone k hk).symm

end Sys2Proof.Machine
end

section
/-! Proof that every accepted request ends, whatever the slave answers (41_block_transfer R180, R182, R183): a bound on
the steps a transfer has left falls with every engine step, and what the end states say holds of every step's state. -/

namespace Sys2Proof.Machine

variable {s s₀ t : State} {a : Agent}

/-! The steps a transfer has left. -/

/-- The steps of one byte's transaction (41_block_transfer R176, R177). -/
def State.stepsPerByte (s : State) : Nat := if s.sdir = true then 12 else 9

/-- The step that completes the phase in flight, if one is. -/
def State.completionSteps (s : State) : Nat := if s.ready = true then 0 else 1

/-- The steps of an armed copy engine's move: in a write the data phase it issues is one more. -/
def State.moveSteps (s : State) : Nat := if s.ceArmed = true then (if s.sdir = true then 1 else 2) else 0

/-- The steps of the bytes after the one in progress. -/
def State.furtherSteps (s : State) : Nat := s.stepsPerByte * (s.count.toNat - s.completed.toNat - 1)

/-- A bound on the engine steps to the end of the request: exact if every phase to come is acknowledged. -/
def State.stepsLeft (s : State) : Nat :=
  match s.sstep with
  | .ssIdle => 0
  | .ssStart => s.stepsPerByte + s.furtherSteps
  | .ssAddr => (if s.sdir = true then 10 else 7) + s.completionSteps + s.furtherSteps
  | .ssRestart => 8 + s.completionSteps + s.furtherSteps
  | .ssRdata => 6 + s.completionSteps + s.furtherSteps
  | .ssStop => 3 + s.completionSteps + s.moveSteps + s.furtherSteps
  | .ssNext => 1 + s.completionSteps + s.furtherSteps
  | .ssAbort => 1 + s.completionSteps

/-- With a phase in flight an active transfer has issued it: it is past SS_START. -/
theorem State.Inv.sstep_of_phase (h : s.Inv) (hbusy : s.sbusy = true) (hr : s.ready = false) :
    s.sstep ≠ .ssIdle ∧ s.sstep ≠ .ssStart := by
  refine ⟨h.sstep_ne_ssIdle hbusy, fun hs => ?_⟩
  have hheld := h.bus.held_of_not_ready hr
  simp [h.held_of_ssStart hs] at hheld

/-- The completed phase is one step less. -/
theorem stepsLeft_lt_of_completed (hr : s.ready = false) (hs : s.sstep ≠ .ssIdle ∧ s.sstep ≠ .ssStart)
    (ht : t.ready = true ∧ t.sstep = s.sstep ∧ t.ceArmed = s.ceArmed ∧ t.sdir = s.sdir ∧ t.count = s.count ∧
      t.completed = s.completed) : t.stepsLeft < s.stepsLeft := by
  obtain ⟨hready, hsstep, hc, hd, hcount, hcompleted⟩ := ht
  obtain ⟨hidle, hstart⟩ := hs
  have hmove : t.moveSteps = s.moveSteps := by simp only [State.moveSteps, hc, hd]
  have hfurther : t.furtherSteps = s.furtherSteps := by
    simp only [State.furtherSteps, State.stepsPerByte, hd, hcount, hcompleted]
  have hcompletion : s.completionSteps = 1 ∧ t.completionSteps = 0 := by simp [State.completionSteps, hr, hready]
  unfold State.stepsLeft
  rw [hsstep, hmove, hfurther, hd]
  cases h : s.sstep with
  | ssIdle => exact absurd h hidle
  | ssStart => exact absurd h hstart
  | ssAddr | ssRestart | ssRdata | ssStop | ssNext | ssAbort => dsimp only; omega

/-- The abort of a failed phase leaves its stop and SS_ABORT, less than the phase had left (40_bus_primitive R126). -/
theorem State.Inv.stepsLeft_fail_lt (h : s.Inv) (hbusy : s.sbusy = true) (hr : s.ready = false)
    (hst : s.bstate ≠ .stopPending) (d : Device) (es : List BusEvent) :
    ({ s with device := d, history := es } : State).fail.stepsLeft < s.stepsLeft := by
  have habort : ({ s with device := d, history := es } : State).fail.stepsLeft = 2 := by
    simp [State.stepsLeft, State.completionSteps, hbusy]
  obtain ⟨hidle, hstart⟩ := h.sstep_of_phase hbusy hr
  have hseq := h.seq
  have hcompletion : s.completionSteps = 1 := by simp [State.completionSteps, hr]
  rw [habort]
  unfold State.stepsLeft
  unfold State.SequencerConsistent at hseq
  cases hs : s.sstep with
  | ssIdle => exact absurd hs hidle
  | ssStart => exact absurd hs hstart
  | ssNext | ssAbort =>
    simp only [hs] at hseq
    exact absurd (hseq.right.right hr) hst
  | ssAddr =>
    dsimp only
    split <;> omega
  | ssRestart | ssRdata | ssStop => dsimp only; omega

theorem State.Inv.stepsLeft_lt_of_busStep (h : s.Inv) (hbusy : s.sbusy = true) (hr : s.ready = false)
    (ht : busStep s = .next t) : t.stepsLeft < s.stepsLeft := by
  have hs := h.sstep_of_phase hbusy hr
  rcases busStep_cases ht with ⟨hst, rfl⟩ | ⟨hst, rfl⟩ | ⟨-, rfl⟩
  · have hnotStop : s.bstate ≠ .stopPending := by rcases hst with hb | hb | hb <;> simp [hb]
    rcases finishTx_cases s with ⟨ht, -⟩ | ⟨e, -, ht, -⟩
    · rw [ht]
      exact stepsLeft_lt_of_completed hr hs ⟨rfl, rfl, rfl, rfl, rfl, rfl⟩
    · rw [ht]
      exact h.stepsLeft_fail_lt hbusy hr hnotStop _ _
  · rcases finishRx_cases s with ⟨v, -, ht⟩ | ⟨-, ht⟩
    · rw [ht]
      exact stepsLeft_lt_of_completed hr hs ⟨rfl, rfl, rfl, rfl, rfl, rfl⟩
    · rw [ht]
      exact h.stepsLeft_fail_lt hbusy hr (by simp [hst]) _ _
  · exact stepsLeft_lt_of_completed hr hs ⟨rfl, rfl, rfl, rfl, rfl, rfl⟩

/-- The issued phase is one step less; what it leaves to do is less than SS_ADDR had left in either direction. -/
theorem stepsLeft_seqAddr_lt (hs : s.sstep = .ssAddr) : s.seqAddr.stepsLeft < s.stepsLeft := by
  cases hd : s.sdir with
  | false =>
    rw [seqAddr_of_write hd]
    simp only [State.stepsLeft, State.completionSteps, State.moveSteps, State.furtherSteps, State.stepsPerByte, hs, hd,
      Bool.false_eq_true, if_true, if_false]
    omega
  | true =>
    rw [seqAddr_of_read hd]
    simp only [State.stepsLeft, State.completionSteps, State.furtherSteps, State.stepsPerByte, hs, hd,
      Bool.false_eq_true, if_true, if_false]
    omega

theorem State.Inv.stepsLeft_seqNext_lt (h : s.Inv) (hbusy : s.sbusy = true) (hs : s.sstep = .ssNext) :
    s.seqNext.stepsLeft < s.stepsLeft := by
  have hcounted := h.request.toNat_completed_succ hbusy
  by_cases hlt : (s.completed + 1).toNat < s.count.toNat
  · obtain ⟨m, hm⟩ : ∃ m, s.count.toNat - s.completed.toNat - 1 = m + 1 :=
      ⟨s.count.toNat - s.completed.toNat - 2, by omega⟩
    have hm' : s.count.toNat - (s.completed + 1).toNat - 1 = m := by omega
    rw [seqNext_of_lt hlt]
    simp only [State.stepsLeft, State.furtherSteps, State.stepsPerByte, hs, hm, hm', Nat.mul_succ]
    omega
  · rw [seqNext_of_not_lt hlt]
    simp only [State.stepsLeft, hs]
    omega

theorem State.Inv.sdir_of_ssRdata (h : s.Inv) (hs : s.sstep = .ssRdata) : s.sdir = true := by
  have hseq := h.seq
  simp only [State.SequencerConsistent, hs] at hseq
  obtain ⟨-, -, -, -, hd⟩ := hseq
  exact hd

theorem State.Inv.stepsLeft_lt_of_seqStep (h : s.Inv) (hbusy : s.sbusy = true) (hc : s.ceArmed = false)
    (ht : seqStep s = .next t) : t.stepsLeft < s.stepsLeft := by
  rcases seqStep_cases ht with ⟨hs, rfl⟩ | ⟨hs, rfl⟩ | ⟨hs, rfl⟩ | ⟨hs, rfl⟩ | ⟨hs, rfl⟩ | ⟨hs, rfl⟩ | ⟨hs, rfl⟩
  case inl =>
    cases hd : s.sdir with
    | false | true =>
      simp [State.stepsLeft, State.completionSteps, State.furtherSteps, State.stepsPerByte, State.seqStart, hs, hd]
  case inr.inl => exact stepsLeft_seqAddr_lt hs
  case inr.inr.inl =>
    show 6 + 1 + s.furtherSteps < s.stepsLeft
    simp only [State.stepsLeft, hs]
    omega
  case inr.inr.inr.inl =>
    have hd := h.sdir_of_ssRdata hs
    have hmove : s.seqRdata.moveSteps = 1 := by simp [State.moveSteps, State.seqRdata, hd]
    show 3 + 1 + s.seqRdata.moveSteps + s.furtherSteps < s.stepsLeft
    simp only [State.stepsLeft, hs, hmove]
    omega
  case inr.inr.inr.inr.inl =>
    have hmove : s.moveSteps = 0 := by simp [State.moveSteps, hc]
    show 1 + 1 + s.furtherSteps < s.stepsLeft
    simp only [State.stepsLeft, hs, hmove]
    omega
  case inr.inr.inr.inr.inr.inl => exact h.stepsLeft_seqNext_lt hbusy hs
  case inr.inr.inr.inr.inr.inr =>
    show 0 < s.stepsLeft
    simp only [State.stepsLeft, hs]
    omega

theorem State.Inv.stepsLeft_lt_of_ceStep (h : s.Inv) (hc : s.ceArmed = true) (hr : s.ready = true)
    (ht : ceStep s = .next t) : t.stepsLeft < s.stepsLeft := by
  have hs := h.sstep_of_ceArmed hc
  obtain ⟨-, ⟨hd, rfl⟩ | ⟨hd, rfl⟩⟩ := ceStep_cases ht
  all_goals
    simp [State.stepsLeft, State.completionSteps, State.moveSteps, State.furtherSteps, State.stepsPerByte, hs, hd, hc,
      hr]

/-- Every engine step of an active transfer lowers the bound. -/
theorem State.Inv.stepsLeft_lt_of_agentStep (h : s.Inv) (hbusy : s.sbusy = true) (ha : s.enabledAgent = some a)
    (ht : agentStep a s = .next t) : t.stepsLeft < s.stepsLeft := by
  cases a with
  | bus => exact h.stepsLeft_lt_of_busStep hbusy (enabledAgent_eq_bus_iff.mp ha) ht
  | seq =>
    obtain ⟨-, -, hc⟩ := enabledAgent_eq_seq_iff.mp ha
    exact h.stepsLeft_lt_of_seqStep hbusy hc ht
  | ce =>
    obtain ⟨hc, hr, -⟩ := enabledAgent_eq_ce_iff.mp ha
    exact h.stepsLeft_lt_of_ceStep hc hr ht

/-! What the end states say, at every step. -/

/-- An engine step keeps the request; only SS_NEXT counts a byte of it. -/
theorem State.SameRequest.of_agentStep (h : s₀.SameRequest s) (hinv : s.Inv) (hbusy : s.sbusy = true)
    (ht : agentStep a s = .next t) : s₀.SameRequest t := by
  have hframe := agentStep_frame ht
  have hd := (agentStep_transferFrame ht).sdir
  obtain ⟨hcount, hbufptr, hslave⟩ := hframe.request
  rcases hframe.counted with ⟨haddr, hcompleted⟩ | ⟨-, -, haddr, hcompleted⟩
  · obtain ⟨hen₀, hd₀, hcount₀, hbufptr₀, hslave₀⟩ := h.kept
    refine ⟨⟨hframe.en.trans hen₀, hd.trans hd₀, hcount.trans hcount₀, hbufptr.trans hbufptr₀,
      hslave.trans hslave₀⟩, ?_⟩
    rw [haddr, hcompleted, h.addr]
  · refine h.count_byte ⟨hframe.en, hd, hcount, hbufptr, hslave⟩ ?_ haddr
    rw [hcompleted, hinv.request.toNat_completed_succ hbusy]

/-- `s` is in the active request that `s₀` is at the start of, no host step to come, and its flags say how far. -/
structure State.Underway (s₀ s : State) : Prop where
  inv     : s.Inv
  inputs  : s.inputs = []
  sbusy   : s.sbusy = true
  request : s₀.SameRequest s
  done    : s.done = false
  byte    : s.byte = true ↔ 0 < s.completed.toNat
  latch   : s.sstep = .ssAbort → s.err = true ∧ s.errcode = .busTimeout

/-- `t` is an end state of the request that `s₀` is at the start of, complete or aborted (41_block_transfer R183). -/
structure State.Ended (s₀ t : State) : Prop where
  inv     : t.Inv
  sbusy   : t.sbusy = false
  held    : t.held = false
  request : s₀.SameRequest t
  outcome : (t.completed = t.count ∧ t.done = true ∧ t.byte = true) ∨
    (t.completed.toNat < t.count.toNat ∧ t.done = false ∧ t.err = true ∧ t.errcode = .busTimeout ∧
      (t.byte = true ↔ 0 < t.completed.toNat))

/-- At SS_NEXT and SS_ABORT the stop has freed the bus by the sequencer's turn (40_bus_primitive R124). -/
theorem State.Inv.held_of_stopped (h : s.Inv) (hr : s.ready = true) (hs : s.sstep = .ssNext ∨ s.sstep = .ssAbort) :
    s.held = false := by
  have hseq := h.seq
  unfold State.SequencerConsistent at hseq
  rcases hs with hs | hs
  all_goals
    simp only [hs] at hseq
    obtain ⟨-, hfree, -⟩ := hseq
    exact hfree hr

theorem State.Underway.seqNext (h : s₀.Underway s) (hr : s.ready = true) (hs : s.sstep = .ssNext)
    (hinv : s.seqNext.Inv) (hrequest : s₀.SameRequest s.seqNext) :
    s₀.Underway s.seqNext ∨ s₀.Ended s.seqNext := by
  have hheld := h.inv.held_of_stopped hr (.inl hs)
  have hcounted := h.inv.request.toNat_completed_succ h.sbusy
  by_cases hlt : (s.completed + 1).toNat < s.count.toNat
  · have hnext := seqNext_of_lt hlt
    have hpositive : 0 < (s.completed + 1).toNat := by omega
    rw [hnext] at hinv hrequest ⊢
    exact .inl ⟨hinv, h.inputs, h.sbusy, hrequest, h.done, iff_of_true rfl hpositive, by simp⟩
  · have hnext := seqNext_of_not_lt hlt
    obtain ⟨hinside, -⟩ := h.inv.request h.sbusy
    have hlast : s.completed + 1 = s.count := BitVec.eq_of_toNat_eq (by omega)
    rw [hnext] at hinv hrequest ⊢
    exact .inr ⟨hinv, rfl, hheld, hrequest, .inl ⟨hlast, rfl, rfl⟩⟩

theorem State.Underway.seqAbort (h : s₀.Underway s) (hr : s.ready = true) (hs : s.sstep = .ssAbort)
    (hinv : s.seqAbort.Inv) (hrequest : s₀.SameRequest s.seqAbort) : s₀.Ended s.seqAbort := by
  obtain ⟨herr, hcode⟩ := h.latch hs
  obtain ⟨hinside, -⟩ := h.inv.request h.sbusy
  exact ⟨hinv, rfl, h.inv.held_of_stopped hr (.inr hs), hrequest, .inr ⟨hinside, h.done, herr, hcode, h.byte⟩⟩

/-- An engine step of an active transfer keeps it underway or ends it. -/
theorem State.Underway.of_agentStep (h : s₀.Underway s) (ha : s.enabledAgent = some a)
    (ht : agentStep a s = .next t) : s₀.Underway t ∨ s₀.Ended t := by
  have hinv := h.inv.of_agentStep ha ht
  have hrequest := h.request.of_agentStep h.inv h.sbusy ht
  have hframe := agentStep_transferFrame ht
  rcases hframe.flags with ⟨hbusy, hbyte, hdone, hcompleted, hlatch⟩ | ⟨rfl, hs, rfl⟩ | ⟨rfl, hs, rfl⟩
  · refine .inl ⟨hinv, hframe.inputs.trans h.inputs, hbusy.trans h.sbusy, hrequest, hdone.trans h.done, ?_,
      fun habort => ?_⟩
    · rw [hbyte, hcompleted]
      exact h.byte
    · rcases hlatch habort with ⟨hs, herr, hcode⟩ | hraised
      · rw [herr, hcode]
        exact h.latch hs
      · exact hraised
  · obtain ⟨-, hr, -⟩ := enabledAgent_eq_seq_iff.mp ha
    exact h.seqNext hr hs hinv hrequest
  · obtain ⟨-, hr, -⟩ := enabledAgent_eq_seq_iff.mp ha
    exact .inr (h.seqAbort hr hs hinv hrequest)

theorem State.Underway.exists_step (h : s₀.Underway s) :
    ∃ t, step s = .next t ∧ t.stepsLeft < s.stepsLeft ∧ (s₀.Underway t ∨ s₀.Ended t) := by
  obtain ⟨a, ha⟩ := h.inv.exists_enabledAgent (.inl h.sbusy)
  obtain ⟨t, ht⟩ := h.inv.exists_next_agentStep ha
  exact ⟨t, (step_of_no_inputs h.inputs ha).trans ht, h.inv.stepsLeft_lt_of_agentStep h.sbusy ha ht,
    h.of_agentStep ha ht⟩

/-- An active transfer ends within the steps it has left (41_block_transfer R182). -/
theorem State.Underway.exists_run (h : s₀.Underway s) :
    ∃ n t, n ≤ s.stepsLeft ∧ runState n s = some t ∧ s₀.Ended t := by
  induction hm : s.stepsLeft using Nat.strong_induction_on generalizing s with
  | _ m ih =>
    obtain ⟨t, hstep, hlt, hnext⟩ := h.exists_step
    rcases hnext with hunderway | hended
    · obtain ⟨n, u, hn, hrun, hended⟩ := ih t.stepsLeft (by omega) hunderway rfl
      exact ⟨n + 1, u, by omega, runState_step hstep hrun, hended⟩
    · exact ⟨1, t, by omega, runState_step hstep rfl, hended⟩

theorem State.SeqTurn.underway_accepted {dir : Bool} (h : (s.accepted dir).SeqTurn .ssStart) :
    (s.accepted dir).Underway (s.accepted dir) :=
  ⟨h.inv, h.inputs, rfl, sameRequest_accepted s dir, rfl, by simp [State.accepted], by simp [State.accepted]⟩

theorem stepsLeft_accepted (dir : Bool) (hcount : s.count ≠ 0) :
    (s.accepted dir).stepsLeft = (if dir = true then 12 else 9) * s.count.toNat := by
  obtain ⟨m, hm⟩ : ∃ m, s.count.toNat = m + 1 :=
    Nat.exists_eq_succ_of_ne_zero fun hzero => hcount (BitVec.eq_of_toNat_eq hzero)
  cases dir with
  | false | true =>
    simp [State.stepsLeft, State.furtherSteps, State.stepsPerByte, State.accepted, hm, Nat.mul_succ, Nat.add_comm]

/-- Settles O56: the accepted request is underway with as many steps left as the bound says, and its end states are
those of R183. -/
theorem everyTransferEnds : Obligations.EveryTransferEnds := by
  intro i s₀ s hi hinv hinputs hexec hbusy hidle
  obtain ⟨haccepted, hcount, rfl⟩ := accepted_of_exec hi hexec hidle hbusy
  obtain ⟨-, -, -, -, hrange⟩ := transferError_eq_none_iff.mp haccepted
  obtain ⟨hcells, -⟩ := requestOutOfRange_eq_false_iff.mp hrange
  obtain ⟨n, t, hn, hrun, hended⟩ :=
    (hinv.seqTurn_accepted hinputs haccepted hcount (decide (i = .xferR))).underway_accepted.exists_run
  rw [stepsLeft_accepted _ hcount] at hn
  obtain ⟨-, hd, hcount', hbufptr, -⟩ := hended.request.kept
  obtain ⟨-, hfree, -⟩ := hended.inv.bus
  obtain ⟨hbstate, hready, -⟩ := hfree hended.held
  have haddr := hended.request.addr
  replace hcount' : t.count = s₀.count := hcount'
  refine ⟨n, t, by simpa using hn, hrun, hended.sbusy, hended.inv.busy.mp hended.sbusy, hbstate, hended.held, hready,
    hended.inv.ceArmed_of_idle hended.sbusy, hd, hcount', hbufptr, ?_⟩
  rcases hended.outcome with ⟨hcompleted, hdone, hbyte⟩ | ⟨hlt, hdone, herr, hcode, hbyte⟩
  · rw [hcount'] at hcompleted
    rw [hcompleted] at haddr
    exact .inl ⟨hcompleted, hdone, hbyte, haddr⟩
  · rw [hcount'] at hlt
    exact .inr ⟨hlt, hdone, herr, hcode, haddr.trans (Nat.mod_eq_of_lt (show s₀.addr.toNat + _ < 256 by omega)), hbyte⟩

end Sys2Proof.Machine
end

section
/-! Proofs about exceptions (60_exceptions R210 to R221): the commands that are rejected, each with the error of its
first failing check, and the flags and the error latch over every step. -/

namespace Sys2Proof.Machine

variable {s t : State} {i : Instr}

/-! Rejected commands (60_exceptions R213 to R215). -/

theorem busyError_of_busy (h : s.en = false ∨ s.sbusy = true ∨ s.ready = false) :
    s.busyError = some .requestRejected := by
  cases hbusy : s.busyError with
  | none =>
    obtain ⟨hen, hidle, hr⟩ := busyError_eq_none_iff.mp hbusy
    simp [hen, hidle, hr] at h
  | some c => rw [busyError_eq_some hbusy]

theorem primitiveError_of_busyError {c : ErrCode} (h : s.busyError = some c) (legal : Bool) :
    s.primitiveError legal = some c := by
  simp only [State.primitiveError, h]

theorem transferError_of_busyError {c : ErrCode} (h : s.busyError = some c) : s.transferError = some c := by
  simp only [State.transferError, h]

/-- Every command but NOP goes through checks 3 to 5 (30_encoding R97). -/
theorem exec_of_busyError {c : ErrCode} (h : s.busyError = some c) (hi : i ≠ .nop) :
    exec i s = .next (s.raise c) := by
  cases i with
  | nop => exact absurd rfl hi
  | startW | startR | sendAddr | sendData | recvAck | recvNack | stop =>
    rw [exec_primitive (by decide) (by decide), performUnless_some (primitiveError_of_busyError h _)]
  | xferW | xferR => rw [exec_transfer (by decide), performUnless_some (transferError_of_busyError h)]

/-- A transfer command is performed or rejected by the one chain of checks of both directions. -/
theorem exec_of_transferError {c : ErrCode} (hi : i = .xferW ∨ i = .xferR) (h : s.transferError = some c) :
    exec i s = .next (s.raise c) := by
  have hop : (opcodeOf i).toNat = 0x8 ∨ (opcodeOf i).toNat = 0x9 :=
    hi.imp (congrArg (opcodeOf · |>.toNat)) (congrArg (opcodeOf · |>.toNat))
  rw [exec_transfer hop, performUnless_some h]

/-- While a manual transaction holds the bus, checks 3 to 5 and check 6 reject with one error. -/
theorem transferError_of_held (hheld : s.held = true) : s.transferError = some .requestRejected := by
  cases hbusy : s.busyError with
  | none => simp only [State.transferError, hbusy, if_pos hheld]
  | some c => rw [transferError_of_busyError hbusy, busyError_eq_some hbusy]

/-- Settles O12: checks 3 to 5 stop every command but NOP, and check 6 a transfer command that they let pass. -/
theorem busyCommandsAreRejected : Obligations.BusyCommandsAreRejected :=
  fun _ _ => ⟨fun hi hbusy => exec_of_busyError (busyError_of_busy hbusy) hi,
    fun hi hheld => exec_of_transferError hi (transferError_of_held hheld)⟩

/-- Settles O13: checks 3 to 6 pass and check 8 fails. -/
theorem outOfRangeIsRejected : Obligations.OutOfRangeIsRejected := by
  intro i s hi hen hidle hr hfree hrange
  have hbusy := busyError_eq_none_iff.mpr ⟨hen, hidle, hr⟩
  have herror : s.transferError = some .outOfRange := by
    simp [State.transferError, hbusy, hfree, requestOutOfRange_eq_true_iff.mpr hrange]
  exact exec_of_transferError hi herror

/-- A primitive command that only check 7 stops (30_encoding R97). -/
theorem performUnless_of_not_legal {legal : Bool} (act : State → State) (hbusy : s.busyError = none)
    (hl : ¬legal = true) : s.performUnless (s.primitiveError legal) act = .next (s.raise .illegalCommand) := by
  refine performUnless_some ?_
  simp only [State.primitiveError, hbusy, if_pos (Bool.eq_false_of_not_eq_true hl)]

/-- Settles O14: checks 3 to 5 pass, and the row of the command in the table of R98 fails; a word that is no command
fails check 1. -/
theorem illegalOrderIsRejected : Obligations.IllegalOrderIsRejected := by
  refine ⟨fun s hen hidle hr => ?_, fun s w hw => ?_⟩
  · have hbusy := busyError_eq_none_iff.mpr ⟨hen, hidle, hr⟩
    refine ⟨fun howed => ?_, fun hsend => ?_, fun hrecv => ?_, fun hstop => ?_⟩
    · have hl : ¬s.legalStart = true := fun h => legalStart_eq_true_iff.mp h howed
      exact ⟨performUnless_of_not_legal (State.issueStart · false) hbusy hl,
        performUnless_of_not_legal (State.issueStart · true) hbusy hl⟩
    · have hl := mt legalSend_eq_true_iff.mp hsend
      exact ⟨performUnless_of_not_legal (fun s => s.issueTx s.addr .addressing) hbusy hl,
        performUnless_of_not_legal (fun s => s.issueTx s.txdata .transmittingByte) hbusy hl⟩
    · have hl := mt legalRecv_eq_true_iff.mp hrecv
      exact ⟨performUnless_of_not_legal (State.issueRx · true) hbusy hl,
        performUnless_of_not_legal (State.issueRx · false) hbusy hl⟩
    · exact performUnless_of_not_legal State.issueStop hbusy (mt legalStop_eq_true_iff.mp hstop)
  · obtain ⟨e, he⟩ := exists_decodeWord_eq_error hw
    exact writeCmd_of_error he s

/-! The flags and the error latch over a host step other than the reset input. -/

/-- The host step writes a 1 to the bit `n` of STATUS (10_state R26). -/
def HostOp.Acknowledges (op : HostOp) (n : Nat) : Prop := ∃ v : Word, op = wr16 .status v ∧ v.getLsbD n = true

/-- What a host step may change of BYTE, DONE, ERR and ERRCODE: by which access each flag falls, and what a raised
error leaves in the latch. -/
structure HostFlagFrame (op : HostOp) (s t : State) : Prop where
  byte    : s.byte = true → t.byte = false → op.Acknowledges 7 ∨ op = command .xferW ∨ op = command .xferR
  done    : s.done = true → t.done = false → op.Acknowledges 8 ∨ op = command .xferW ∨ op = command .xferR
  err     : s.err = true → t.err = false → op.Acknowledges 9
  errcode : t.errcode ≠ s.errcode → t.err = true ∧ t.errcode ≠ .busTimeout
  raised  : s.err = false → t.err = true → t.errcode ≠ .none

/-- As for the frames above, the cases below name only the fields in which an action differs from doing nothing. -/
theorem hostFlagFrame_refl (op : HostOp) (s : State) : HostFlagFrame op s s where
  byte hset hclear := by simp [hset] at hclear
  done hset hclear := by simp [hset] at hclear
  err hset hclear := by simp [hset] at hclear
  errcode hne := absurd rfl hne
  raised hclear hset := by simp [hclear] at hset

theorem hostFlagFrame_raise {c : ErrCode} (op : HostOp) (s : State) (hnone : c ≠ .none) (htimeout : c ≠ .busTimeout) :
    HostFlagFrame op s (s.raise c) :=
  { hostFlagFrame_refl op s with
    err := fun _ hclear => by simp at hclear
    errcode := fun _ => ⟨rfl, htimeout⟩
    raised := fun _ _ => hnone }

/-- The acknowledgement clears the flags it names and keeps ERRCODE (60_exceptions R221). -/
theorem hostFlagFrame_acknowledge (s : State) (v : Word) : HostFlagFrame (wr16 .status v) s (s.acknowledge v) where
  byte hset hclear := .inl ⟨v, rfl, by simpa [State.acknowledge, hset] using hclear⟩
  done hset hclear := .inl ⟨v, rfl, by simpa [State.acknowledge, hset] using hclear⟩
  err hset hclear := ⟨v, rfl, by simpa [State.acknowledge, hset] using hclear⟩
  errcode hne := absurd rfl hne
  raised hclear hset := by simp [State.acknowledge, hclear] at hset

/-- An accepted transfer sets BYTE and DONE anew and keeps the latch (41_block_transfer R163). -/
theorem hostFlagFrame_accept (hi : i = .xferW ∨ i = .xferR) (s : State) (dir : Bool) :
    HostFlagFrame (command i) s (s.accept dir) := by
  have hop : command i = command .xferW ∨ command i = command .xferR :=
    hi.imp (congrArg command) (congrArg command)
  unfold State.accept
  split
  · exact { hostFlagFrame_refl (command i) s with byte := fun _ _ => .inr hop, done := fun _ _ => .inr hop }
  · exact { hostFlagFrame_refl (command i) s with byte := fun _ _ => .inr hop, done := fun _ _ => .inr hop }

theorem exec_hostFlagFrame (h : exec i s = .next t) : HostFlagFrame (command i) s t := by
  rcases exec_cases h with ⟨-, rfl⟩ | ⟨-, c, hnone, htimeout, rfl⟩ | ⟨-, -, -, hdone⟩
  · exact hostFlagFrame_refl _ _
  · exact hostFlagFrame_raise _ s hnone htimeout
  · rcases hdone with ⟨-, -, rfl⟩ | ⟨-, -, rfl⟩ | ⟨-, -, rfl⟩ | ⟨-, -, rfl⟩ | ⟨-, -, rfl⟩ | ⟨-, -, rfl⟩ |
      ⟨-, -, rfl⟩ | ⟨hi, -, -, rfl⟩ | ⟨hi, -, -, rfl⟩
    · exact { hostFlagFrame_refl _ s with }
    · exact { hostFlagFrame_refl _ s with }
    · exact { hostFlagFrame_refl _ s with }
    · exact { hostFlagFrame_refl _ s with }
    · exact { hostFlagFrame_refl _ s with }
    · exact { hostFlagFrame_refl _ s with }
    · exact { hostFlagFrame_refl _ s with }
    · exact hostFlagFrame_accept (.inl hi) s false
    · exact hostFlagFrame_accept (.inr hi) s true

theorem writeCmd_hostFlagFrame {v : Word} (h : writeCmd v s = .next t) : HostFlagFrame (wr16 .cmd v) s t := by
  rcases writeCmd_cases h with ⟨i, hi, hexec⟩ | ⟨-, rfl⟩
  · rw [eq_encode_of_decodeWord hi]
    exact exec_hostFlagFrame hexec
  · exact hostFlagFrame_raise _ s (by decide) (by decide)

theorem writeReg_hostFlagFrame {r : Reg} {v : Word} (h : writeReg r v s = .next t) :
    HostFlagFrame (wr16 r v) s t := by
  rcases writeReg_cases h with ⟨rfl, hcmd⟩ | ⟨-, rfl⟩ | ⟨rfl, rfl⟩ | ⟨-, rfl⟩ | ⟨-, rfl⟩ | ⟨-, -, rfl⟩ |
    ⟨-, -, rfl⟩ | ⟨-, -, rfl⟩ | ⟨-, -, rfl⟩ | ⟨-, -, -, rfl⟩
  case inl => exact writeCmd_hostFlagFrame hcmd
  case inr.inl =>
    unfold State.writeCtrl
    dsimp only
    split
    · exact { hostFlagFrame_raise _ s (c := .requestRejected) (by decide) (by decide) with }
    · exact { hostFlagFrame_refl _ s with }
  case inr.inr.inl => exact hostFlagFrame_acknowledge s v
  case inr.inr.inr.inr.inl => exact hostFlagFrame_raise _ s (by decide) (by decide)
  all_goals exact { hostFlagFrame_refl _ _ with }

theorem hostStep_hostFlagFrame {op : HostOp} (h : hostStep op s = .next t) (hreset : ∀ d, op ≠ .reset d) :
    HostFlagFrame op s t := by
  rcases hostStep_cases h with ⟨w, o, r, rfl, -, rfl⟩ | ⟨w, o, v, r, rfl, hreg, hwrite⟩ | ⟨a, rfl, rfl⟩ |
    ⟨a, b, rfl, rfl⟩ | ⟨d, rfl, -⟩
  · exact { hostFlagFrame_refl _ s with }
  · by_cases hr : r = .reserved
    · subst hr
      cases hwrite
      exact hostFlagFrame_refl _ s
    · obtain ⟨rfl, rfl⟩ := offset_of_accessedReg hreg hr
      exact writeReg_hostFlagFrame hwrite
  · exact { hostFlagFrame_refl _ s with }
  · exact { hostFlagFrame_refl _ s with }
  · exact absurd rfl (hreset d)

/-! The error latch over an engine step. -/

/-- The states of a phase that a slave's answer can fail: all but the stop's (40_bus_primitive R122 to R124). -/
def State.AwaitsAnswer (s : State) : Prop :=
  s.bstate = .startPending ∨ s.bstate = .addressing ∨ s.bstate = .transmittingByte ∨ s.bstate = .receivingByte

/-- A step of the agent `a` keeps the error latch, or is the step of BUS that fails a phase (60_exceptions R212). -/
def EngineLatch (a : Agent) (s t : State) : Prop :=
  (t.err = s.err ∧ t.errcode = s.errcode) ∨
  (a = .bus ∧ s.AwaitsAnswer ∧ t.err = true ∧ t.errcode = .busTimeout)

theorem busStep_engineLatch (h : busStep s = .next t) : EngineLatch .bus s t := by
  rcases busStep_cases h with ⟨hst, rfl⟩ | ⟨hst, rfl⟩ | ⟨-, rfl⟩
  · have hawaits : s.AwaitsAnswer := hst.imp_right (.imp_right .inl)
    rcases finishTx_cases s with ⟨ht, -⟩ | ⟨e, -, ht, -⟩
    · exact ht ▸ .inl ⟨rfl, rfl⟩
    · exact ht ▸ .inr ⟨rfl, hawaits, rfl, rfl⟩
  · rcases finishRx_cases s with ⟨v, -, ht⟩ | ⟨-, ht⟩
    · exact ht ▸ .inl ⟨rfl, rfl⟩
    · exact ht ▸ .inr ⟨rfl, .inr (.inr (.inr hst)), rfl, rfl⟩
  · exact .inl ⟨rfl, rfl⟩

theorem seqStep_engineLatch (h : seqStep s = .next t) : EngineLatch .seq s t := by
  rcases seqStep_cases h with ⟨-, rfl⟩ | ⟨-, rfl⟩ | ⟨-, rfl⟩ | ⟨-, rfl⟩ | ⟨-, rfl⟩ | ⟨-, rfl⟩ | ⟨-, rfl⟩
  case inr.inl =>
    unfold State.seqAddr
    split
    · exact .inl ⟨rfl, rfl⟩
    · exact .inl ⟨rfl, rfl⟩
  case inr.inr.inr.inr.inr.inl =>
    unfold State.seqNext
    dsimp only
    split
    · exact .inl ⟨rfl, rfl⟩
    · exact .inl ⟨rfl, rfl⟩
  all_goals exact .inl ⟨rfl, rfl⟩

theorem ceStep_engineLatch (h : ceStep s = .next t) : EngineLatch .ce s t := by
  obtain ⟨-, ⟨-, rfl⟩ | ⟨-, rfl⟩⟩ := ceStep_cases h
  · exact .inl ⟨rfl, rfl⟩
  · exact .inl ⟨rfl, rfl⟩

theorem agentStep_engineLatch {a : Agent} (h : agentStep a s = .next t) : EngineLatch a s t := by
  cases a with
  | bus => exact busStep_engineLatch h
  | seq => exact seqStep_engineLatch h
  | ce => exact ceStep_engineLatch h

/-! The flags and the error latch over a step of the machine. -/

/-- A step is the reset input, which empties the latch, another host step with its frame, or an engine step, which
clears no flag; the host's coming steps stand in neither. -/
theorem step_flags (h : step s = .next t) :
    (s.ResetDue ∧ t.err = false ∧ t.errcode = .none) ∨
    (∃ op, s.dueOp = some op ∧ HostFlagFrame op s t) ∨
    (∃ a, s.enabledAgent = some a ∧ s.dueOp = none ∧ s.KeepsFlags t ∧ EngineLatch a s t) := by
  rcases step_cases h with ⟨i, rest, -, hdue, hhost⟩ | ⟨a, ins, ha, hdue, -, hagent⟩ | ⟨-, -, hstuck⟩
  · by_cases hreset : ∃ d, i.op = .reset d
    · obtain ⟨d, hd⟩ := hreset
      rw [hd] at hdue hhost
      cases hhost
      exact .inl ⟨⟨d, hdue⟩, rfl, rfl⟩
    · exact .inr (.inl ⟨i.op, hdue, { hostStep_hostFlagFrame hhost (not_exists.mp hreset) with }⟩)
  · exact .inr (.inr ⟨a, ha, hdue, (agentStep_frame hagent).flags,
      agentStep_engineLatch (s := { s with inputs := ins }) hagent⟩)
  · cases hstuck

/-- The write that acknowledges a flag, as a due host step. -/
theorem HostOp.Acknowledges.due {op : HostOp} {n : Nat} (h : op.Acknowledges n) (hdue : s.dueOp = some op) :
    ∃ v : Word, s.dueOp = some (.write .w16 0x04 v) ∧ v.getLsbD n = true := by
  obtain ⟨v, rfl, hv⟩ := h
  exact ⟨v, hdue, hv⟩

/-- Settles O30: a host step clears a flag only by the accesses its frame names, an engine step clears none. -/
theorem flagsClearedOnlyByTheHost : Obligations.FlagsClearedOnlyByTheHost := by
  intro s t hstep
  rcases step_flags hstep with ⟨hreset, -, -⟩ | ⟨op, hdue, hframe⟩ | ⟨a, -, -, ⟨-, hbyte, hdone, herr⟩, -⟩
  · exact ⟨fun _ _ => .inr (.inr (.inr hreset)), fun _ _ => .inr (.inr (.inr hreset)), fun _ _ => .inr hreset⟩
  · have due {n : Nat} (hop : op.Acknowledges n ∨ op = command .xferW ∨ op = command .xferR) :
        (∃ v : Word, s.dueOp = some (.write .w16 0x04 v) ∧ v.getLsbD n = true) ∨
        s.dueOp = some (.write .w16 0x02 0x0008) ∨ s.dueOp = some (.write .w16 0x02 0x0009) ∨ s.ResetDue := by
      rcases hop with hack | rfl | rfl
      · exact .inl (hack.due hdue)
      · exact .inr (.inl hdue)
      · exact .inr (.inr (.inl hdue))
    exact ⟨fun hset hclear => due (hframe.byte hset hclear), fun hset hclear => due (hframe.done hset hclear),
      fun hset hclear => .inl ((hframe.err hset hclear).due hdue)⟩
  · refine ⟨fun hset hclear => ?_, fun hset hclear => ?_, fun hset hclear => ?_⟩
    · simp [hbyte hset] at hclear
    · simp [hdone hset] at hclear
    · simp [herr hset] at hclear

/-- Settles O31: a reset empties the latch, a host step raises an error with a code other than BusTimeout, and an engine
step that changes the latch fails a phase of BUS, which READY = 0 enables. -/
theorem errorLatchDiscipline : Obligations.ErrorLatchDiscipline := by
  intro s t hstep
  rcases step_flags hstep with ⟨hreset, herr, hcode⟩ | ⟨op, -, hframe⟩ |
    ⟨a, ha, hdue, -, ⟨herr, hcode⟩ | ⟨rfl, hawaits, herr, hcode⟩⟩
  · refine ⟨fun _ => .inr hreset, fun _ hset => ?_, fun htimeout _ => ?_⟩
    · simp [herr] at hset
    · simp [hcode] at htimeout
  · refine ⟨fun hne => .inl (hframe.errcode hne).left, hframe.raised, fun htimeout hother => ?_⟩
    exact absurd htimeout (hframe.errcode (htimeout ▸ hother.symm)).right
  · refine ⟨fun hne => absurd hcode hne, fun hclear hset => ?_, fun htimeout hother => ?_⟩
    · simp [herr, hclear] at hset
    · exact absurd (hcode ▸ htimeout) hother
  · exact ⟨fun _ => .inl herr, fun _ _ => by simp [hcode],
      fun _ _ => ⟨hdue, enabledAgent_eq_bus_iff.mp ha, hawaits⟩⟩

end Sys2Proof.Machine
end
